-- ==== Sys2Proof/Word.lean ====
section
/-! DEFINITION. The word types of the engine: bytes, event words and foreground op words. -/

namespace Sys2Proof

/-- A buffered byte, a command code, an argument (00_scope.md R7, R10). -/
abbrev Byte := BitVec 8

/-- The 12-bit event word, tag in bits 11..8 and data in bits 7..0 (30_encoding.md R70). -/
abbrev EventWord := BitVec 12

/-- The 2-bit op of the foreground port (30_encoding.md R77). -/
abbrev FgOp := BitVec 2

end Sys2Proof
end

