-- ==== Sys2Proof/Config.lean ====
section
/-! DEFINITION. The parameters the spec leaves open (00_scope.md R8): their types, and the constants without a body
that stand for the installed parameters and for the environment's draws. -/

namespace Sys2Proof

/-- The fixed capacities (00_scope.md R7). -/
def Config.rxCap : Nat := 34

/-- The fixed capacities (00_scope.md R7). -/
def Config.txCap : Nat := 33

/-- The ten kinds of bus event (30_encoding.md R71). -/
inductive BusEvent where
  | addressMatchWrite
  | dataReceivedAck
  | dataReceivedNack
  | stopOrRestart
  | addressMatchRead
  | dataTransmittedAck
  | dataTransmittedNack
  | lastDataTransmittedAckUnexpected
  | busError
  | unrecognized
deriving DecidableEq, Repr, Inhabited

/-- The fifteen commands of the default table (44_commands.md R195). -/
inductive Command where
  | identify
  | setMotorType
  | setTimerDivider
  | enableOutputs
  | disableOutputs
  | setSpeed
  | setDirection
  | setStepCount
  | stepForward
  | stepBackward
  | stepsForward
  | stepsBackward
  | stepSpeed
  | stepRemaining
  | stepRelease
deriving DecidableEq, Repr, Inhabited

/-- An entry of CMD_TABLE (44_commands.md R190). A default command has the length and the kind of result of R195.
An external entry declares its own length, and nothing is known of its handler. -/
inductive Entry where
  | default (c : Command)
  | external (length : Nat)
deriving DecidableEq, Repr, Inhabited

/-- The parameters fixed before reset and never written (00_scope.md R8; 20_memory.md R61): CMD_TABLE, where the
first pair with a given code counts, ID_BYTE, and STATUS_DECODE, where a status in no pair is Unrecognized
(30_encoding.md R76). -/
structure Config where
  table : List (Byte × Entry)
  idByte : Byte
  statusMap : List (Byte × BusEvent)
deriving DecidableEq, Repr, Inhabited

/-- The three results of a command handler (44_commands.md R191). -/
inductive HandlerResult where
  | reject
  | done
  | respond (bytes : List Byte)
deriving DecidableEq, Repr, Inhabited

/-- What a command handler receives: the command byte, the argument bytes, and EN (44_commands.md R191). -/
structure HandlerCall where
  code : Byte
  args : List Byte
  en : Bool
deriving DecidableEq, Repr, Inhabited

/-- What the oracle HANDLER answers to a call. The dispatcher uses the part it needs: whether the handler returns at
all (70_reset_and_hazards.md R280), whether a default command with arguments accepts them (44_commands.md R195),
whether an armed sequence is still running (R209), and the answer of a handler of an external entry (R191). -/
structure Reply where
  returns : Bool
  accepts : Bool
  stepRunning : Bool
  answer : HandlerResult
deriving DecidableEq, Repr, Inhabited

/-- One draw from the environment: the port that a pure read samples (43_dispatcher.md R180), and the oracle HANDLER,
a function of the call that is written as plain data: the replies to the calls listed, and the one reply to every
other call (44_commands.md R191; log 2). -/
structure Draw where
  statusIn : Byte
  replies : List (HandlerCall × Reply)
  otherwise : Reply
deriving DecidableEq, Repr, Inhabited

/-- The installed parameters: a constant without a body, so nothing can be proved of its value
(44_commands.md R211). DESIGN CHOICE, safe: log 1. -/
opaque Config.installed : Config

/-- The n-th draw of the environment, after the calls that handlers have completed so far, newest first, where the
state's list of draws holds none: a free value. A handler reads no state of the engine but its call (44_commands.md
R193), so the calls before and the draw's number are all its answer can depend on. DESIGN CHOICE, safe: log 2. -/
opaque Config.freeDraw : Nat → List HandlerCall → Draw

end Sys2Proof
end

