-- ==== Sys2Proof/Syntax.lean ====
section
/-! DEFINITION. The instructions, one constructor for each row of spec/opcode_table.json, the encoded forms they
have, and the inputs that reach the engine's two ports. -/

namespace Sys2Proof

/-- Bus events (30_encoding.md R71, R73), foreground operations (R77) and commands (44_commands.md R195). A command
carries the field c of its row, the code byte rx[0], and the argument bytes rx[1..RXCOUNT-1] in arrival order
(43_dispatcher.md R171). The reserved blocks carry the tag bits their row leaves free. -/
inductive Instr where
  | amw
  | dra (d : Byte)
  | drn (d : Byte)
  | sor
  | amr
  | dta
  | dtn
  | ldtau
  | be
  | unr
  | unrRsvAB (low : BitVec 1)
  | unrRsvCF (low : BitVec 2)
  | fgInit
  | fgEnable
  | fgDisable
  | fgReadErr
  | cmdIdentify (code : Byte) (args : List Byte)
  | cmdSetMotorType (code : Byte) (args : List Byte)
  | cmdSetTimerDivider (code : Byte) (args : List Byte)
  | cmdEnableOutputs (code : Byte) (args : List Byte)
  | cmdDisableOutputs (code : Byte) (args : List Byte)
  | cmdSetSpeed (code : Byte) (args : List Byte)
  | cmdSetDirection (code : Byte) (args : List Byte)
  | cmdSetStepCount (code : Byte) (args : List Byte)
  | cmdStepForward (code : Byte) (args : List Byte)
  | cmdStepBackward (code : Byte) (args : List Byte)
  | cmdStepsForward (code : Byte) (args : List Byte)
  | cmdStepsBackward (code : Byte) (args : List Byte)
  | cmdStepSpeed (code : Byte) (args : List Byte)
  | cmdStepRemaining (code : Byte) (args : List Byte)
  | cmdStepRelease (code : Byte) (args : List Byte)
deriving DecidableEq, Repr

/-- The three formats of spec/opcode_table.json: EVENT12, FGOP2, and CMDBYTE followed by its argument bytes
(30_encoding.md R70, R77, R78). -/
inductive Encoded where
  | event (w : EventWord)
  | foreground (op : FgOp)
  | message (bytes : List Byte)
deriving DecidableEq, Repr

/-- What the outside world can deliver for one step: an event word (30_encoding.md R70), a raw status byte with the
controller's data register (R75, R76), or a foreground operation (R77). -/
inductive Input where
  | event (w : EventWord)
  | raw (status data : Byte)
  | foreground (op : FgOp)
deriving DecidableEq, Repr

end Sys2Proof
end

