-- ==== Sys2Proof/Decode.lean ====
section
/-! DEFINITION. Decoding of event words, foreground ops and messages, total on every bit pattern; the boundary decode
of raw statuses; the command table's lookup and lengths; after them the encoder and the pseudo-instructions. -/

namespace Sys2Proof

/-! ### The command table -/

/-- The length of a default command's message, the command byte counted (44_commands.md R195). -/
def Command.declaredLength : Command → Nat
  | .identify => 1
  | .setMotorType => 2
  | .setTimerDivider => 2
  | .enableOutputs => 1
  | .disableOutputs => 1
  | .setSpeed => 3
  | .setDirection => 3
  | .setStepCount => 3
  | .stepForward => 1
  | .stepBackward => 1
  | .stepsForward => 1
  | .stepsBackward => 1
  | .stepSpeed => 2
  | .stepRemaining => 1
  | .stepRelease => 1

/-- The exact length an entry declares (44_commands.md R190). -/
def Entry.declaredLength : Entry → Nat
  | .default c => c.declaredLength
  | .external n => n

/-- The first pair with the given key. -/
def lookupFirst {α : Type} (k : Byte) : List (Byte × α) → Option α
  | [] => none
  | (k', a) :: rest => if k' = k then some a else lookupFirst k rest

/-- CMD_TABLE as a partial function (44_commands.md R190). -/
def Config.lookup (cfg : Config) (code : Byte) : Option Entry := lookupFirst code cfg.table

/-- The instruction of a default command with its code and arguments. -/
def Command.toInstr (code : Byte) (args : List Byte) : Command → Instr
  | .identify => .cmdIdentify code args
  | .setMotorType => .cmdSetMotorType code args
  | .setTimerDivider => .cmdSetTimerDivider code args
  | .enableOutputs => .cmdEnableOutputs code args
  | .disableOutputs => .cmdDisableOutputs code args
  | .setSpeed => .cmdSetSpeed code args
  | .setDirection => .cmdSetDirection code args
  | .setStepCount => .cmdSetStepCount code args
  | .stepForward => .cmdStepForward code args
  | .stepBackward => .cmdStepBackward code args
  | .stepsForward => .cmdStepsForward code args
  | .stepsBackward => .cmdStepsBackward code args
  | .stepSpeed => .cmdStepSpeed code args
  | .stepRemaining => .cmdStepRemaining code args
  | .stepRelease => .cmdStepRelease code args

/-- The command, code and arguments of a command instruction. -/
def Instr.commandParts : Instr → Option (Command × Byte × List Byte)
  | .amw => none
  | .dra _ => none
  | .drn _ => none
  | .sor => none
  | .amr => none
  | .dta => none
  | .dtn => none
  | .ldtau => none
  | .be => none
  | .unr => none
  | .unrRsvAB _ => none
  | .unrRsvCF _ => none
  | .fgInit => none
  | .fgEnable => none
  | .fgDisable => none
  | .fgReadErr => none
  | .cmdIdentify code args => some (.identify, code, args)
  | .cmdSetMotorType code args => some (.setMotorType, code, args)
  | .cmdSetTimerDivider code args => some (.setTimerDivider, code, args)
  | .cmdEnableOutputs code args => some (.enableOutputs, code, args)
  | .cmdDisableOutputs code args => some (.disableOutputs, code, args)
  | .cmdSetSpeed code args => some (.setSpeed, code, args)
  | .cmdSetDirection code args => some (.setDirection, code, args)
  | .cmdSetStepCount code args => some (.setStepCount, code, args)
  | .cmdStepForward code args => some (.stepForward, code, args)
  | .cmdStepBackward code args => some (.stepBackward, code, args)
  | .cmdStepsForward code args => some (.stepsForward, code, args)
  | .cmdStepsBackward code args => some (.stepsBackward, code, args)
  | .cmdStepSpeed code args => some (.stepSpeed, code, args)
  | .cmdStepRemaining code args => some (.stepRemaining, code, args)
  | .cmdStepRelease code args => some (.stepRelease, code, args)

/-! ### Decoding -/

/-- The tag field, bits 11..8 (30_encoding.md R70). -/
def eventTag (w : EventWord) : BitVec 4 := w.extractLsb' 8 4

/-- The data field, bits 7..0 (30_encoding.md R70). -/
def eventData (w : EventWord) : Byte := w.extractLsb' 0 8

/-- Total on the 4096 event words (30_encoding.md R71, R73); the data field is read for tags 1 and 2 alone (R72). -/
def decodeEvent (w : EventWord) : Instr :=
  match (eventTag w).toNat with
  | 0 => .amw
  | 1 => .dra (eventData w)
  | 2 => .drn (eventData w)
  | 3 => .sor
  | 4 => .amr
  | 5 => .dta
  | 6 => .dtn
  | 7 => .ldtau
  | 8 => .be
  | 9 => .unr
  | 10 => .unrRsvAB 0
  | 11 => .unrRsvAB 1
  | _ => .unrRsvCF ((eventTag w).extractLsb' 0 2)

/-- All four ops are assigned (30_encoding.md R77). -/
def decodeForeground (op : FgOp) : Instr :=
  match op.toNat with
  | 0 => .fgInit
  | 1 => .fgEnable
  | 2 => .fgDisable
  | _ => .fgReadErr

/-- Why a message is no default command: it has no command byte (40_receive.md R120), its code has no entry
(43_dispatcher.md R172), its length is not the declared one (R173), or its entry is an external one. -/
inductive DecodeError where
  | emptyMessage
  | unknownCommand (code : Byte)
  | wrongLength (code : Byte) (received declared : Nat)
  | externalEntry (code : Byte)
deriving DecidableEq, Repr

/-- The lookup key is the first byte alone, and the length is exact (43_dispatcher.md R171 to R173). -/
def decodeMessage (cfg : Config) : List Byte → Except DecodeError Instr
  | [] => .error .emptyMessage
  | code :: args =>
    match cfg.lookup code with
    | none => .error (.unknownCommand code)
    | some (.external _) => .error (.externalEntry code)
    | some (.default c) =>
      if args.length + 1 = c.declaredLength then .ok (c.toInstr code args)
      else .error (.wrongLength code (args.length + 1) c.declaredLength)

/-- The decoder over the table's three formats. -/
def decode (cfg : Config) : Encoded → Except DecodeError Instr
  | .event w => .ok (decodeEvent w)
  | .foreground op => .ok (decodeForeground op)
  | .message bytes => decodeMessage cfg bytes

/-! ### The boundary decode -/

/-- The tag of each kind of event (30_encoding.md R71). -/
def BusEvent.tag : BusEvent → BitVec 4
  | .addressMatchWrite => 0x0
  | .dataReceivedAck => 0x1
  | .dataReceivedNack => 0x2
  | .stopOrRestart => 0x3
  | .addressMatchRead => 0x4
  | .dataTransmittedAck => 0x5
  | .dataTransmittedNack => 0x6
  | .lastDataTransmittedAckUnexpected => 0x7
  | .busError => 0x8
  | .unrecognized => 0x9

/-- STATUS_DECODE, total: a status with no pair is Unrecognized (30_encoding.md R76). -/
def Config.statusDecode (cfg : Config) (status : Byte) : BusEvent :=
  match lookupFirst status cfg.statusMap with
  | some e => e
  | none => .unrecognized

/-- The event word with the given tag and data (30_encoding.md R70). -/
def eventWord (tag : BitVec 4) (data : Byte) : EventWord := tag ++ data

/-- The boundary translation: the event's tag, with the controller's data register in the data field
(30_encoding.md R75, R76). -/
def Config.rawWord (cfg : Config) (status data : Byte) : EventWord :=
  eventWord (cfg.statusDecode status).tag data

/-- The default binding of the raw statuses (30_encoding.md R76, from general knowledge). A named value that
`Config.installed` is not tied to. PRESUMED, safe: log 12. -/
def defaultStatusMap : List (Byte × BusEvent) :=
  [(0x60, .addressMatchWrite), (0x80, .dataReceivedAck), (0x88, .dataReceivedNack), (0xA0, .stopOrRestart),
   (0xA8, .addressMatchRead), (0xB8, .dataTransmittedAck), (0xC0, .dataTransmittedNack),
   (0xC8, .lastDataTransmittedAckUnexpected), (0x00, .busError)]

/-- The default table for the given fifteen codes CMD_<name> (44_commands.md R195). -/
def defaultTable (code : Command → Byte) : List (Byte × Entry) :=
  [Command.identify, .setMotorType, .setTimerDivider, .enableOutputs, .disableOutputs, .setSpeed, .setDirection,
   .setStepCount, .stepForward, .stepBackward, .stepsForward, .stepsBackward, .stepSpeed, .stepRemaining,
   .stepRelease].map fun c => (code c, Entry.default c)

/-- The instruction an input stands for: an event word, a raw status translated first, or a foreground op. -/
def decodeInput (cfg : Config) : Input → Instr
  | .event w => decodeEvent w
  | .raw status data => decodeEvent (cfg.rawWord status data)
  | .foreground op => decodeForeground op

/-! ### Encoding -/

/-- The words of an instruction. An event without operand has data 0x00 (30_encoding.md R79). -/
def encode : Instr → Encoded
  | .amw => .event (eventWord 0x0 0)
  | .dra d => .event (eventWord 0x1 d)
  | .drn d => .event (eventWord 0x2 d)
  | .sor => .event (eventWord 0x3 0)
  | .amr => .event (eventWord 0x4 0)
  | .dta => .event (eventWord 0x5 0)
  | .dtn => .event (eventWord 0x6 0)
  | .ldtau => .event (eventWord 0x7 0)
  | .be => .event (eventWord 0x8 0)
  | .unr => .event (eventWord 0x9 0)
  | .unrRsvAB low => .event (eventWord (0b101#3 ++ low) 0)
  | .unrRsvCF low => .event (eventWord (0b11#2 ++ low) 0)
  | .fgInit => .foreground 0b00
  | .fgEnable => .foreground 0b01
  | .fgDisable => .foreground 0b10
  | .fgReadErr => .foreground 0b11
  | .cmdIdentify code args => .message (code :: args)
  | .cmdSetMotorType code args => .message (code :: args)
  | .cmdSetTimerDivider code args => .message (code :: args)
  | .cmdEnableOutputs code args => .message (code :: args)
  | .cmdDisableOutputs code args => .message (code :: args)
  | .cmdSetSpeed code args => .message (code :: args)
  | .cmdSetDirection code args => .message (code :: args)
  | .cmdSetStepCount code args => .message (code :: args)
  | .cmdStepForward code args => .message (code :: args)
  | .cmdStepBackward code args => .message (code :: args)
  | .cmdStepsForward code args => .message (code :: args)
  | .cmdStepsBackward code args => .message (code :: args)
  | .cmdStepSpeed code args => .message (code :: args)
  | .cmdStepRemaining code args => .message (code :: args)
  | .cmdStepRelease code args => .message (code :: args)

/-- The event words that deliver the bytes of a write phase, each acknowledged. -/
def receiveInputs (bytes : List Byte) : List Input := bytes.map fun b => .event (eventWord 0x1 b)

/-- WRITE b0, ..., bk (30_encoding.md R79). -/
def writeInputs (bytes : List Byte) : List Input :=
  .event (eventWord 0x0 0) :: receiveInputs bytes ++ [.event (eventWord 0x3 0)]

/-- READ(m), m at least 1 (30_encoding.md R79). -/
def readInputs (m : Nat) : List Input :=
  .event (eventWord 0x4 0) :: List.replicate (m - 1) (.event (eventWord 0x5 0)) ++ [.event (eventWord 0x6 0)]

/-- PCALL(m) b0, ..., bk, m at least 1 (30_encoding.md R79). -/
def processCallInputs (m : Nat) (bytes : List Byte) : List Input := writeInputs bytes ++ readInputs m

/-! ### The host's view of an opcode-table word -/

/-- An operand count of zeros: the arguments the table gives no bits. -/
def zeroArgs (cfg : Config) (code : Byte) : List Byte :=
  match cfg.lookup code with
  | some e => List.replicate (e.declaredLength - 1) 0
  | none => []

/-- What the decoder reads from a word of an opcode-table row: a row of more than 8 bits is an event word, whose
bits above 11 are 0; a word of at most 8 bits that fits 2 is a foreground op and any other a command byte, looked up
in the installed table, with operand bytes of zeros. DESIGN CHOICE, safe: log 8. -/
def decodeTableWord (nbits w : Nat) : Option Instr :=
  if 8 < nbits then
    if w < 4096 then some (decodeEvent (BitVec.ofNat 12 w)) else none
  else if w < 4 then some (decodeForeground (BitVec.ofNat 2 w))
  else if w < 256 then
    match decodeMessage Config.installed
        (BitVec.ofNat 8 w :: zeroArgs Config.installed (BitVec.ofNat 8 w)) with
    | .ok i => some i
    | .error _ => none
  else none

end Sys2Proof
end

