-- ==== Sys2Proof/Machine/State.lean ====
section
/-! DEFINITION. The state of the engine (10_state.md R20), the reasons a step can stop, and the state after reset. -/

namespace Sys2Proof.Machine

/-- STATE (10_state.md R21). -/
inductive TransactionState where
  | idle
  | wr
  | rr
  | wtrr
deriving DecidableEq, Repr

/-- The two address spaces (20_memory.md R52). -/
inductive Buffer where
  | rx
  | tx
deriving DecidableEq, Repr

/-- The causes that set ERR (60_exceptions.md R240). They stand in the model's trace only (R241, R242). -/
inductive Cause where
  | rxNack
  | rxOverflow
  | malformedEmpty
  | unknownCmd
  | argCount
  | handlerReject
  | txPastEnd
  | txPrematureNack
  | txLastUnexpected
  | busError
  | unrecognized
  | unexpectedEvent
deriving DecidableEq, Repr

/-- The model's trace (60_exceptions.md R253): a cause (R241), or a call that a handler completed, with the EN it saw
(44_commands.md R191; the EN is log 9). -/
inductive TraceEvent where
  | cause (c : Cause)
  | handlerCall (code : Byte) (args : List Byte) (en : Bool)
deriving DecidableEq, Repr

/-- A buffer's written bytes, indexes strictly rising; an index that is not listed holds no value (10_state.md R32). -/
abbrev Memory := List Host.Cell

/-- Why a step stops with a fault. -/
inductive Fault where
  /-- A read of a byte that no rule has written in the current transaction (20_memory.md R50; 10_state.md R32;
  93_implementation_defined.md item 2; log 5), raised by `memRead`. Safe: the spec asks for the fault, and it is
  unreachable under the invariants of 10_state.md R34. -/
  | unwrittenByte (buf : Buffer) (i : Nat)
  /-- An access beyond a buffer's capacity (20_memory.md R50, R51), raised by `memRead` and `memWrite`. Safe:
  unreachable under the invariants of 10_state.md R34. -/
  | outOfRange (buf : Buffer) (i : Nat)
  /-- A handler that does not return (70_reset_and_hazards.md R280; 93_implementation_defined.md item 4): the agent
  makes no further step, raised by `callHandler`. Safe. -/
  | handlerStuck (code : Byte)
deriving DecidableEq, Repr

/-- Why a step is refused. -/
inductive Refusal where
  /-- An arm of `exec` without a meaning; raised by no arm of this model. Safe. -/
  | notModelled (mnemonic : String)
  /-- A handler's response of more than 33 bytes, E_HANDLER_CONTRACT (43_dispatcher.md R178), raised by
  `finishCall`. Safe: the spec says the model refuses the step. -/
  | handlerContract (code : Byte) (n : Nat)
deriving DecidableEq, Repr

/-- The registers and buffers of 10_state.md R20, then the model's own fields: which bytes the current transaction has
written, the ports, the parameters of 00_scope.md R8 and the trace. -/
structure State where
  state : TransactionState
  rxCount : Nat
  txLen : Nat
  txCount : Nat
  err : Bool
  en : Bool
  rx : Memory
  tx : Memory
  ack : Bool
  txData : Byte
  txValid : Bool
  stop : Bool
  /-- The indexes of rx written in the current transaction, no repeats (10_state.md R34, I6; log 5). -/
  rxWritten : List Nat
  /-- The indexes of tx written in the current transaction, no repeats (10_state.md R34, I7; log 5). -/
  txWritten : List Nat
  /-- The result of the latest foreground operation (30_encoding.md R77; log 10). -/
  fgResult : Option Bool
  /-- The parameters fixed before reset (00_scope.md R8; log 1). -/
  config : Config
  /-- The inputs not yet delivered, oldest first (20_memory.md R58; log 6). -/
  inputs : List Input
  /-- The environment's next draws, each a port value and an oracle, the next one first; past its end the draws are
  free values (log 2). -/
  draws : List Draw
  /-- How many draws have been used (log 2). -/
  drawCount : Nat
  /-- The model's trace, newest first (log 9). -/
  trace : List TraceEvent
deriving DecidableEq, Repr

/-- The state after reset (10_state.md R36). TXDATA has no value there: 0 is the model's choice (log 4). -/
def State.reset : State where
  state := .idle
  rxCount := 0
  txLen := 0
  txCount := 0
  err := false
  en := false
  rx := []
  tx := []
  ack := true
  txData := 0
  txValid := false
  stop := false
  rxWritten := []
  txWritten := []
  fgResult := none
  config := Config.installed
  inputs := []
  draws := []
  drawCount := 0
  trace := []

end Sys2Proof.Machine
end

