-- ==== Sys2Proof/Machine/Ops.lean ====
section
/-! DEFINITION. The named operations over buffers and registers, the event step's skeleton, the abandonment (the
engine's one exception, 60_exceptions.md R241) and the draws from the environment. -/

namespace Sys2Proof.Machine

/-! ### Buffers -/

/-- The byte an index holds, if any. -/
def Memory.get (m : Memory) (i : Nat) : Option Byte :=
  match m with
  | [] => none
  | (j, v) :: rest => if j = i then some v else Memory.get rest i

/-- The byte at an index replaced or inserted, the order kept. -/
def Memory.put (m : Memory) (i : Nat) (v : Byte) : Memory :=
  match m with
  | [] => [(i, v)]
  | (j, w) :: rest =>
    if i < j then (i, v) :: (j, w) :: rest
    else if i = j then (i, v) :: rest
    else (j, w) :: Memory.put rest i v

/-- Indexes from `lo` on, strictly rising and below `cap`: the canonical form. -/
def Memory.wfFrom (lo cap : Nat) (m : Memory) : Bool :=
  match m with
  | [] => true
  | (j, _) :: rest => decide (lo ≤ j ∧ j < cap) && Memory.wfFrom (j + 1) cap rest

/-- The canonical form of a buffer of the given capacity. -/
def Memory.wf (cap : Nat) (m : Memory) : Bool := Memory.wfFrom 0 cap m

/-- Capacities (00_scope.md R7; 20_memory.md R52). -/
def Buffer.cap : Buffer → Nat
  | .rx => Config.rxCap
  | .tx => Config.txCap

/-- The contents of a buffer. -/
def State.mem (s : State) : Buffer → Memory
  | .rx => s.rx
  | .tx => s.tx

/-- The state with a buffer's contents replaced. -/
def State.withMem (s : State) (b : Buffer) (m : Memory) : State :=
  match b with
  | .rx => { s with rx := m }
  | .tx => { s with tx := m }

/-- The indexes of a buffer written in the current transaction (10_state.md R34, I6, I7). -/
def State.written (s : State) : Buffer → List Nat
  | .rx => s.rxWritten
  | .tx => s.txWritten

/-- An index of a buffer is from now on one that the current transaction has written. -/
def State.markWritten (s : State) (b : Buffer) (i : Nat) : State :=
  match b with
  | .rx => { s with rxWritten := s.rxWritten.insert i }
  | .tx => { s with txWritten := s.txWritten.insert i }

/-- MemRead(buf, i, 1) (20_memory.md R50). A byte that no rule has written in the current transaction has no value to
read, whatever an earlier one left there (10_state.md R32; 93_implementation_defined.md item 2; log 5). -/
def memRead (b : Buffer) (i : Nat) (s : State) : Except Fault Byte :=
  if i < b.cap then
    if i ∈ s.written b then
      match (s.mem b).get i with
      | some v => .ok v
      | none => .error (.unwrittenByte b i)
    else .error (.unwrittenByte b i)
  else .error (.outOfRange b i)

/-- MemWrite(buf, i, 1, v) (20_memory.md R51), the index marked as written in the current transaction. -/
def memWrite (b : Buffer) (i : Nat) (v : Byte) (s : State) : Except Fault State :=
  if i < b.cap then .ok ((s.withMem b ((s.mem b).put i v)).markWritten b i) else .error (.outOfRange b i)

/-- The bytes at `n` indexes from `i` on, in index order. -/
def memReadRange (b : Buffer) (i n : Nat) (s : State) : Except Fault (List Byte) :=
  match n with
  | 0 => .ok []
  | k + 1 =>
    match memRead b i s with
    | .error f => .error f
    | .ok v =>
      match memReadRange b (i + 1) k s with
      | .error f => .error f
      | .ok vs => .ok (v :: vs)

/-- The bytes of a list written at consecutive indexes from `i` on. -/
def memWriteList (b : Buffer) (i : Nat) (vs : List Byte) (s : State) : Except Fault State :=
  match vs with
  | [] => .ok s
  | v :: rest =>
    match memWrite b i v s with
    | .error f => .error f
    | .ok t => memWriteList b (i + 1) rest t

/-- Continue a step after an access that may fault. -/
def orFault {α : Type} (e : Except Fault α) (k : α → Host.Outcome State Fault Refusal) :
    Host.Outcome State Fault Refusal :=
  match e with
  | .ok a => k a
  | .error f => .fault f

/-! ### Registers and outputs -/

/-- STATE <- st, the engine's one control transfer (10_state.md R22). -/
def State.goto (s : State) (st : TransactionState) : State := { s with state := st }

/-- The ACK decision for the next byte (10_state.md R27). -/
def State.setAck (s : State) (b : Bool) : State := { s with ack := b }

/-- emit TX(v) (00_scope.md R11; 10_state.md R28). -/
def State.emitTx (s : State) (v : Byte) : State := { s with txData := v, txValid := true }

/-- emit STOP (00_scope.md R11; 10_state.md R29). -/
def State.emitStop (s : State) : State := { s with stop := true }

/-- The outputs of a step before anything is emitted: `tx_valid` and `stop` are 0 unless the step emits them, and
TXDATA stays (00_scope.md R11; 10_state.md R28, R29). Every step, of either agent, begins with it. -/
def State.clearOutputs (s : State) : State := { s with txValid := false, stop := false }

/-- One more event in the model's trace, newest first (60_exceptions.md R253). -/
def State.record (s : State) (e : TraceEvent) : State := { s with trace := e :: s.trace }

/-- en_out, what handlers see of EN (10_state.md R26). -/
def State.enOut (s : State) : Bool := s.en

/-! ### The event step's skeleton and the abandonment -/

/-- ClearTransaction(): the contents of rx and tx are kept (40_receive.md R101). A transaction starts here, so none of
their bytes is written in it yet (10_state.md R23, R34; log 5). -/
def State.clearTransaction (s : State) : State :=
  { s with rxCount := 0, txCount := 0, txLen := 0, err := false, rxWritten := [], txWritten := [] }

/-- What every event step does before its own rule (40_receive.md R100): the defaults of the outputs, then the entry
action if the event arrives in Idle (R101). It is also how the engine starts afresh after an abandonment
(60_exceptions.md R244). -/
def State.beginEvent (s : State) : State :=
  let s1 := s.clearOutputs.setAck true
  if s1.state = .idle then s1.clearTransaction else s1

/-- ERR <- 1 with its cause recorded, STATE kept: the overflow (40_receive.md R110). -/
def State.flagError (s : State) (c : Cause) : State := { s with err := true }.record (.cause c)

/-- raise Abandon(cause): ERR <- 1, STATE <- Idle, nothing cleared, the cause in the trace alone (60_exceptions.md
R241). -/
def State.abandon (s : State) (c : Cause) : State := (s.flagError c).goto .idle

/-! ### Draws from the environment -/

/-- The call that a trace event stands for. -/
def TraceEvent.call : TraceEvent → Option HandlerCall
  | .cause _ => none
  | .handlerCall code args en => some ⟨code, args, en⟩

/-- The calls that handlers have completed, newest first; a rejected call has no side effect (44_commands.md R191). -/
def State.pastCalls (s : State) : List HandlerCall := s.trace.filterMap TraceEvent.call

/-- The draw the next use takes: the first of the list, or past its end a free value (log 2). -/
def State.currentDraw (s : State) : Draw :=
  match s.draws with
  | d :: _ => d
  | [] => Config.freeDraw s.drawCount s.pastCalls

/-- The reply a list of replies holds for a call, or the given one. -/
def replyFrom (c : HandlerCall) (other : Reply) : List (HandlerCall × Reply) → Reply
  | [] => other
  | (c', r) :: rest => if c' = c then r else replyFrom c other rest

/-- The oracle of a draw, asked for a call (44_commands.md R191). -/
def replyTo (d : Draw) (c : HandlerCall) : Reply := replyFrom c d.otherwise d.replies

/-- HANDLER(code, args, EN): the oracle in use, asked for the call with the EN that en_out shows (44_commands.md
R191; 10_state.md R26). -/
def State.handlerReply (s : State) (code : Byte) (args : List Byte) : Reply :=
  replyTo s.currentDraw ⟨code, args, s.enOut⟩

/-- The draw used up. -/
def State.takeDraw (s : State) : State :=
  { s with draws := s.draws.tail, drawCount := s.drawCount + 1 }

end Sys2Proof.Machine
end

