-- ==== Sys2Proof/Machine/ErrorEvents.lean ====
section
/-! DEFINITION. BusError, Unrecognized and the reserved tags (42_error_events.md). -/

namespace Sys2Proof.Machine

/-- BusError (42_error_events.md R150). -/
def execBe (s : State) : Host.Outcome State Fault Refusal :=
  .next ((s.beginEvent.emitStop.abandon .busError).setAck true)

/-- Unrecognized (42_error_events.md R153). -/
def execUnr (s : State) : Host.Outcome State Fault Refusal :=
  .next ((s.beginEvent.abandon .unrecognized).setAck true)

/-- The reserved tags 0xA and 0xB act as Unrecognized (30_encoding.md R73; 42_error_events.md R153). -/
def execUnrRsvAB (_low : BitVec 1) (s : State) : Host.Outcome State Fault Refusal :=
  .next ((s.beginEvent.abandon .unrecognized).setAck true)

/-- The reserved tags 0xC to 0xF act as Unrecognized (30_encoding.md R73; 42_error_events.md R153). -/
def execUnrRsvCF (_low : BitVec 2) (s : State) : Host.Outcome State Fault Refusal :=
  .next ((s.beginEvent.abandon .unrecognized).setAck true)

end Sys2Proof.Machine
end

