-- ==== Sys2Proof/Machine/Foreground.lean ====
section
/-! DEFINITION. The Control Facade (45_foreground.md). Each operation is a step (00_scope.md R3), so it drives
the step's outputs to 0 (10_state.md R28, R29), and it leaves its result, if any, on the port (30_encoding.md R77;
log 10). -/

namespace Sys2Proof.Machine

/-- FG_INIT: every register and buffer of 10_state.md R20 to its reset value (45_foreground.md R221). With it ends
any transaction, so no byte is written in the current one (log 5). The parameters, the pending inputs, the draws and the
trace are the environment's and the model's, and stay (log 14). -/
def execFgInit (s : State) : Host.Outcome State Fault Refusal :=
  .next { s with
    state := State.reset.state, rxCount := State.reset.rxCount, txLen := State.reset.txLen,
    txCount := State.reset.txCount, err := State.reset.err, en := State.reset.en, rx := State.reset.rx,
    tx := State.reset.tx, ack := State.reset.ack, txData := State.reset.txData, txValid := State.reset.txValid,
    stop := State.reset.stop, rxWritten := State.reset.rxWritten, txWritten := State.reset.txWritten,
    fgResult := none }

/-- FG_ENABLE: EN alone is written, and no output is emitted (45_foreground.md R220, R222; log 15). -/
def execFgEnable (s : State) : Host.Outcome State Fault Refusal :=
  .next { s.clearOutputs with en := true, fgResult := none }

/-- FG_DISABLE: EN alone is written, and no output is emitted (45_foreground.md R220, R223; log 15). -/
def execFgDisable (s : State) : Host.Outcome State Fault Refusal :=
  .next { s.clearOutputs with en := false, fgResult := none }

/-- FG_READ_ERR: the result is ERR, no register is written, and no output is emitted (45_foreground.md R220, R224;
log 15). -/
def execFgReadErr (s : State) : Host.Outcome State Fault Refusal :=
  .next { s.clearOutputs with fgResult := some s.err }

end Sys2Proof.Machine
end

