-- ==== Sys2Proof/Machine/Flags.lean ====
section
/-! DEFINITION. The ACK and ERR computations, and the ordinal and class of each cause of ERR. -/

namespace Sys2Proof.Machine

/-- Back-pressure: 0 once rx is full (40_receive.md R110, R111). -/
def ackAfterStore (rxCount : Nat) : Bool := decide (rxCount < Config.rxCap)

/-- Every prepared byte is on the wire (41_transmit.md R133). -/
def State.txExhausted (s : State) : Bool := decide (s.txCount = s.txLen)

/-- The ordinal of a cause (60_exceptions.md R240). -/
def Cause.ordinal : Cause → Nat
  | .rxNack => 1
  | .rxOverflow => 2
  | .malformedEmpty => 3
  | .unknownCmd => 4
  | .argCount => 5
  | .handlerReject => 6
  | .txPastEnd => 7
  | .txPrematureNack => 8
  | .txLastUnexpected => 9
  | .busError => 10
  | .unrecognized => 11
  | .unexpectedEvent => 12

/-- The message class; every other cause is of the transport class (60_exceptions.md R240). -/
def Cause.isMessage : Cause → Bool
  | .unknownCmd => true
  | .argCount => true
  | .handlerReject => true
  | .rxNack => false
  | .rxOverflow => false
  | .malformedEmpty => false
  | .txPastEnd => false
  | .txPrematureNack => false
  | .txLastUnexpected => false
  | .busError => false
  | .unrecognized => false
  | .unexpectedEvent => false

end Sys2Proof.Machine
end

