-- ==== Sys2Proof/Machine/Operands.lean ====
section
/-! DEFINITION. The operand forms: the message a completed write leaves in rx, the answer a default command's handler
gives, and the complement of a byte. -/

namespace Sys2Proof.Machine

/-- The spec's encoding of STATE (10_state.md R21). -/
def TransactionState.code : TransactionState → BitVec 2
  | .idle => 0
  | .wr => 1
  | .rr => 2
  | .wtrr => 3

/-- The complement of a byte (00_scope.md R10). -/
def invertByte (v : Byte) : Byte := ~~~v

/-- The command code, rx[0] (43_dispatcher.md R170). -/
def messageCode (s : State) : Except Fault Byte := memRead .rx 0 s

/-- The arguments rx[1..RXCOUNT-1] in arrival order (43_dispatcher.md R170, R171). -/
def messageArgs (s : State) : Except Fault (List Byte) := memReadRange .rx 1 (s.rxCount - 1) s

/-- The listed bytes at the indexes from `i` on. -/
def cellsFrom (i : Nat) : List Byte → Memory
  | [] => []
  | b :: rest => (i, b) :: cellsFrom (i + 1) rest

/-- The state a write phase that delivered exactly these bytes leaves, before the StopOrRestart that ends it
(40_receive.md R105, R110): what `withFetchWord` sets up for a command (log 7). -/
def deliverMessage (bytes : List Byte) (s : State) : State :=
  { s with
    state := .wr, rxCount := bytes.length, txLen := 0, txCount := 0, err := false, rx := cellsFrom 0 bytes,
    rxWritten := List.range bytes.length, txWritten := [] }

/-- The answer of a handler that may reject its arguments (44_commands.md R195): the oracle says which, for this
call. -/
def acceptAnswer (code : Byte) (args : List Byte) (s : State) : HandlerResult :=
  if (s.handlerReply code args).accepts then .done else .reject

/-- The answer of identify (44_commands.md R196). -/
def identityAnswer (s : State) : HandlerResult := .respond [s.config.idByte]

/-- The answer of step remaining: r in 0, 1, drawn from the external stepper state (44_commands.md R209). -/
def remainingAnswer (code : Byte) (args : List Byte) (s : State) : HandlerResult :=
  .respond [if (s.handlerReply code args).stepRunning then 1 else 0]

/-- The answer of a handler of an external entry: any result of the contract's form (44_commands.md R191; log 3). -/
def externalAnswer (code : Byte) (args : List Byte) (s : State) : HandlerResult := (s.handlerReply code args).answer

end Sys2Proof.Machine
end

