-- ==== Sys2Proof/Machine/Commands.lean ====
section
/-! DEFINITION. A handler's call and its result (43_dispatcher.md R170, 44_commands.md R191), and the meaning of each
default command (44_commands.md R196 to R210). A command's meaning is what the dispatcher does for it inside the
StopOrRestart step, after the lookup of its code (log 7). -/

namespace Sys2Proof.Machine

/-- What the dispatcher does with a handler's result (43_dispatcher.md R174 to R178). -/
def finishCall (code : Byte) (args : List Byte) (r : HandlerResult) (s : State) :
    Host.Outcome State Fault Refusal :=
  match r with
  | .reject => .next (s.abandon .handlerReject)
  | .done => .next ((s.record (.handlerCall code args s.enOut)).goto .idle)
  | .respond b =>
    if b.length = 0 then .next ((s.record (.handlerCall code args s.enOut)).goto .idle)
    else if b.length ≤ Config.txCap then
      orFault (memWriteList .tx 0 b (s.record (.handlerCall code args s.enOut))) fun t =>
        .next ({ t with txLen := b.length, txCount := 0 }.goto .wtrr)
    else .refused (.handlerContract code b.length)

/-- HANDLER(code, args, EN) consulted once, with the answer `r` it gives if it returns (44_commands.md R191;
70_reset_and_hazards.md R280). -/
def callHandler (code : Byte) (args : List Byte) (r : HandlerResult) (s : State) :
    Host.Outcome State Fault Refusal :=
  if (s.handlerReply code args).returns then finishCall code args r s.takeDraw else .fault (.handlerStuck code)

/-- The exact length check, the command byte counted, then the call (43_dispatcher.md R170, R173). -/
def checkedCall (length : Nat) (code : Byte) (args : List Byte) (r : HandlerResult) (s : State) :
    Host.Outcome State Fault Refusal :=
  if args.length + 1 = length then callHandler code args r s else .next (s.abandon .argCount)

/-- identify (44_commands.md R196). -/
def execCmdIdentify (code : Byte) (args : List Byte) (s : State) : Host.Outcome State Fault Refusal :=
  checkedCall Command.identify.declaredLength code args (identityAnswer s) s

/-- set motor type (44_commands.md R197). -/
def execCmdSetMotorType (code : Byte) (args : List Byte) (s : State) : Host.Outcome State Fault Refusal :=
  checkedCall Command.setMotorType.declaredLength code args (acceptAnswer code args s) s

/-- set timer divider (44_commands.md R198). -/
def execCmdSetTimerDivider (code : Byte) (args : List Byte) (s : State) : Host.Outcome State Fault Refusal :=
  checkedCall Command.setTimerDivider.declaredLength code args (acceptAnswer code args s) s

/-- enable outputs; EN is not written (44_commands.md R199). -/
def execCmdEnableOutputs (code : Byte) (args : List Byte) (s : State) : Host.Outcome State Fault Refusal :=
  checkedCall Command.enableOutputs.declaredLength code args .done s

/-- disable outputs; EN is not written (44_commands.md R200). -/
def execCmdDisableOutputs (code : Byte) (args : List Byte) (s : State) : Host.Outcome State Fault Refusal :=
  checkedCall Command.disableOutputs.declaredLength code args .done s

/-- set left/right speed (44_commands.md R201). -/
def execCmdSetSpeed (code : Byte) (args : List Byte) (s : State) : Host.Outcome State Fault Refusal :=
  checkedCall Command.setSpeed.declaredLength code args (acceptAnswer code args s) s

/-- set direction (44_commands.md R202). -/
def execCmdSetDirection (code : Byte) (args : List Byte) (s : State) : Host.Outcome State Fault Refusal :=
  checkedCall Command.setDirection.declaredLength code args (acceptAnswer code args s) s

/-- set step count (44_commands.md R203). -/
def execCmdSetStepCount (code : Byte) (args : List Byte) (s : State) : Host.Outcome State Fault Refusal :=
  checkedCall Command.setStepCount.declaredLength code args (acceptAnswer code args s) s

/-- step forward, single (44_commands.md R204). -/
def execCmdStepForward (code : Byte) (args : List Byte) (s : State) : Host.Outcome State Fault Refusal :=
  checkedCall Command.stepForward.declaredLength code args .done s

/-- step backward, single (44_commands.md R205). -/
def execCmdStepBackward (code : Byte) (args : List Byte) (s : State) : Host.Outcome State Fault Refusal :=
  checkedCall Command.stepBackward.declaredLength code args .done s

/-- steps forward, armed (44_commands.md R206). -/
def execCmdStepsForward (code : Byte) (args : List Byte) (s : State) : Host.Outcome State Fault Refusal :=
  checkedCall Command.stepsForward.declaredLength code args .done s

/-- steps backward, armed (44_commands.md R207). -/
def execCmdStepsBackward (code : Byte) (args : List Byte) (s : State) : Host.Outcome State Fault Refusal :=
  checkedCall Command.stepsBackward.declaredLength code args .done s

/-- step speed (44_commands.md R208). -/
def execCmdStepSpeed (code : Byte) (args : List Byte) (s : State) : Host.Outcome State Fault Refusal :=
  checkedCall Command.stepSpeed.declaredLength code args (acceptAnswer code args s) s

/-- step remaining (44_commands.md R209). -/
def execCmdStepRemaining (code : Byte) (args : List Byte) (s : State) : Host.Outcome State Fault Refusal :=
  checkedCall Command.stepRemaining.declaredLength code args (remainingAnswer code args s) s

/-- step release (44_commands.md R210). -/
def execCmdStepRelease (code : Byte) (args : List Byte) (s : State) : Host.Outcome State Fault Refusal :=
  checkedCall Command.stepRelease.declaredLength code args .done s

end Sys2Proof.Machine
end

