-- ==== Sys2Proof/Machine/Dispatcher.lean ====
section
/-! DEFINITION. The Message Dispatcher's two upcalls (43_dispatcher.md). -/

namespace Sys2Proof.Machine

/-- The meaning of a default command, chosen by the handler its entry names. -/
def runCommand (c : Command) (code : Byte) (args : List Byte) (s : State) :
    Host.Outcome State Fault Refusal :=
  match c with
  | .identify => execCmdIdentify code args s
  | .setMotorType => execCmdSetMotorType code args s
  | .setTimerDivider => execCmdSetTimerDivider code args s
  | .enableOutputs => execCmdEnableOutputs code args s
  | .disableOutputs => execCmdDisableOutputs code args s
  | .setSpeed => execCmdSetSpeed code args s
  | .setDirection => execCmdSetDirection code args s
  | .setStepCount => execCmdSetStepCount code args s
  | .stepForward => execCmdStepForward code args s
  | .stepBackward => execCmdStepBackward code args s
  | .stepsForward => execCmdStepsForward code args s
  | .stepsBackward => execCmdStepsBackward code args s
  | .stepSpeed => execCmdStepSpeed code args s
  | .stepRemaining => execCmdStepRemaining code args s
  | .stepRelease => execCmdStepRelease code args s

/-- The handler of an external entry may give any answer of the contract's form (44_commands.md R191; log 3). -/
def runExternal (length : Nat) (code : Byte) (args : List Byte) (s : State) :
    Host.Outcome State Fault Refusal :=
  checkedCall length code args (externalAnswer code args s) s

/-- The dispatcher on a message's code and arguments: the lookup first, then the length, then the handler
(43_dispatcher.md R170 to R173; 60_exceptions.md R245). -/
def dispatchMessage (code : Byte) (args : List Byte) (s : State) : Host.Outcome State Fault Refusal :=
  match s.config.lookup code with
  | none => .next (s.abandon .unknownCmd)
  | some (.default c) => runCommand c code args s
  | some (.external n) => runExternal n code args s

/-- WriteComplete() (43_dispatcher.md R170). -/
def writeComplete (s : State) : Host.Outcome State Fault Refusal :=
  orFault (messageCode s) fun code => orFault (messageArgs s) fun args => dispatchMessage code args s

/-- PureRead(): one sample of STATUS_IN, inverted, is the whole response (43_dispatcher.md R180). -/
def pureRead (s : State) : Except Fault State :=
  match memWrite .tx 0 (invertByte s.currentDraw.statusIn) s.takeDraw with
  | .ok t => .ok { t with txLen := 1 }
  | .error f => .error f

end Sys2Proof.Machine
end

