-- ==== Sys2Proof/Machine/Receive.lean ====
section
/-! DEFINITION. The receive-side events (40_receive.md). -/

namespace Sys2Proof.Machine

/-- AddressMatchWrite (40_receive.md R105). -/
def execAmw (s : State) : Host.Outcome State Fault Refusal :=
  let s1 := s.beginEvent
  let s2 := if s1.state = .idle then s1 else s1.clearTransaction
  .next ((s2.goto .wr).setAck true)

/-- The branch of DataReceivedAck that a state open for received bytes takes (40_receive.md R110). -/
def receiveByte (d : Byte) (s : State) : Host.Outcome State Fault Refusal :=
  if s.rxCount < Config.rxCap then
    orFault (memWrite .rx s.rxCount d s) fun t =>
      .next ({ t with rxCount := s.rxCount + 1 }.setAck (ackAfterStore (s.rxCount + 1)))
  else .next ((s.flagError .rxOverflow).setAck false)

/-- DataReceivedAck (40_receive.md R110). -/
def execDra (d : Byte) (s : State) : Host.Outcome State Fault Refusal :=
  let s1 := s.beginEvent
  match s1.state with
  | .wr => receiveByte d s1
  | .wtrr => receiveByte d s1
  | .idle => .next ((s1.abandon .unexpectedEvent).setAck true)
  | .rr => .next ((s1.abandon .unexpectedEvent).setAck true)

/-- DataReceivedNack: its byte is discarded (40_receive.md R115). -/
def execDrn (_d : Byte) (s : State) : Host.Outcome State Fault Refusal :=
  .next ((s.beginEvent.abandon .rxNack).setAck true)

/-- StopOrRestart (40_receive.md R120). The upcall leaves ACK alone, so the rule's ACK <- 1 may stand before it. -/
def execSor (s : State) : Host.Outcome State Fault Refusal :=
  let s1 := s.beginEvent.setAck true
  match s1.state with
  | .idle => .next s1
  | .wr =>
    if s1.err then .next (s1.goto .idle)
    else if s1.rxCount = 0 then .next (s1.abandon .malformedEmpty)
    else writeComplete s1
  | .rr => .next (s1.abandon .unexpectedEvent)
  | .wtrr => .next (s1.abandon .unexpectedEvent)

end Sys2Proof.Machine
end

