-- ==== Sys2Proof/Machine/Transmit.lean ====
section
/-! DEFINITION. The transmit-side events (41_transmit.md). -/

namespace Sys2Proof.Machine

/-- The first prepared byte goes on the wire (41_transmit.md R130). -/
def startRead (s : State) : Host.Outcome State Fault Refusal :=
  orFault (memRead .tx 0 s) fun v =>
    .next ((({ s.emitTx v with txCount := 1 }).goto .rr).setAck true)

/-- AddressMatchRead (41_transmit.md R130). -/
def execAmr (s : State) : Host.Outcome State Fault Refusal :=
  let s1 := s.beginEvent
  match s1.state with
  | .idle => orFault (pureRead s1) startRead
  | .wtrr => startRead s1
  | .wr => .next ((s1.abandon .unexpectedEvent).setAck true)
  | .rr => .next ((s1.abandon .unexpectedEvent).setAck true)

/-- The next prepared byte goes on the wire (41_transmit.md R133). -/
def sendNext (s : State) : Host.Outcome State Fault Refusal :=
  orFault (memRead .tx s.txCount s) fun v =>
    .next ({ s.emitTx v with txCount := s.txCount + 1 }.setAck true)

/-- DataTransmittedAck: exhaustion is tested before the state (41_transmit.md R133, R134). -/
def execDta (s : State) : Host.Outcome State Fault Refusal :=
  let s1 := s.beginEvent
  if s1.txExhausted then .next ((s1.abandon .txPastEnd).setAck false)
  else
    match s1.state with
    | .rr => sendNext s1
    | .idle => .next ((s1.abandon .unexpectedEvent).setAck true)
    | .wr => .next ((s1.abandon .unexpectedEvent).setAck true)
    | .wtrr => .next ((s1.abandon .unexpectedEvent).setAck true)

/-- DataTransmittedNack: the ordinary end of a read; an error if bytes remain, or outside a read
(41_transmit.md R137). -/
def execDtn (s : State) : Host.Outcome State Fault Refusal :=
  let s1 := s.beginEvent
  match s1.state with
  | .rr =>
    if s1.txExhausted then .next ((s1.goto .idle).setAck true)
    else .next ((s1.abandon .txPrematureNack).setAck true)
  | .idle => .next ((s1.abandon .unexpectedEvent).setAck true)
  | .wr => .next ((s1.abandon .unexpectedEvent).setAck true)
  | .wtrr => .next ((s1.abandon .unexpectedEvent).setAck true)

/-- LastDataTransmittedAckUnexpected (41_transmit.md R140). -/
def execLdtau (s : State) : Host.Outcome State Fault Refusal :=
  .next ((s.beginEvent.abandon .txLastUnexpected).setAck true)

end Sys2Proof.Machine
end

