-- ==== Sys2Proof/Machine/Dispatch.lean ====
section
/-! DEFINITION. The dispatch: one arm for each constructor of Instr, each one call of its meaning. -/

namespace Sys2Proof.Machine

def exec (i : Instr) (s : State) : Host.Outcome State Fault Refusal :=
  match i with
  | .amw => Sys2Proof.Machine.execAmw s
  | .dra d => Sys2Proof.Machine.execDra d s
  | .drn d => Sys2Proof.Machine.execDrn d s
  | .sor => Sys2Proof.Machine.execSor s
  | .amr => Sys2Proof.Machine.execAmr s
  | .dta => Sys2Proof.Machine.execDta s
  | .dtn => Sys2Proof.Machine.execDtn s
  | .ldtau => Sys2Proof.Machine.execLdtau s
  | .be => Sys2Proof.Machine.execBe s
  | .unr => Sys2Proof.Machine.execUnr s
  | .unrRsvAB low => Sys2Proof.Machine.execUnrRsvAB low s
  | .unrRsvCF low => Sys2Proof.Machine.execUnrRsvCF low s
  | .fgInit => Sys2Proof.Machine.execFgInit s
  | .fgEnable => Sys2Proof.Machine.execFgEnable s
  | .fgDisable => Sys2Proof.Machine.execFgDisable s
  | .fgReadErr => Sys2Proof.Machine.execFgReadErr s
  | .cmdIdentify code args => Sys2Proof.Machine.execCmdIdentify code args s
  | .cmdSetMotorType code args => Sys2Proof.Machine.execCmdSetMotorType code args s
  | .cmdSetTimerDivider code args => Sys2Proof.Machine.execCmdSetTimerDivider code args s
  | .cmdEnableOutputs code args => Sys2Proof.Machine.execCmdEnableOutputs code args s
  | .cmdDisableOutputs code args => Sys2Proof.Machine.execCmdDisableOutputs code args s
  | .cmdSetSpeed code args => Sys2Proof.Machine.execCmdSetSpeed code args s
  | .cmdSetDirection code args => Sys2Proof.Machine.execCmdSetDirection code args s
  | .cmdSetStepCount code args => Sys2Proof.Machine.execCmdSetStepCount code args s
  | .cmdStepForward code args => Sys2Proof.Machine.execCmdStepForward code args s
  | .cmdStepBackward code args => Sys2Proof.Machine.execCmdStepBackward code args s
  | .cmdStepsForward code args => Sys2Proof.Machine.execCmdStepsForward code args s
  | .cmdStepsBackward code args => Sys2Proof.Machine.execCmdStepsBackward code args s
  | .cmdStepSpeed code args => Sys2Proof.Machine.execCmdStepSpeed code args s
  | .cmdStepRemaining code args => Sys2Proof.Machine.execCmdStepRemaining code args s
  | .cmdStepRelease code args => Sys2Proof.Machine.execCmdStepRelease code args s

end Sys2Proof.Machine
end

