-- ==== Sys2Proof/Machine/Step.lean ====
section
/-! DEFINITION. One step: the oldest pending input is delivered and runs; and how an opcode-table word is delivered. -/

namespace Sys2Proof.Machine

/-- One step of the engine: the oldest input, decoded, runs (10_state.md R22; 20_memory.md R58). With no input
pending, nothing happens: the run has ended (70_reset_and_hazards.md R289; log 6). -/
def step (s : State) : Host.Outcome State Fault Refusal :=
  match s.inputs with
  | [] => .next s
  | x :: rest => exec (decodeInput s.config x) { s with inputs := rest }

/-- The state with an opcode-table word as its very next input. A command byte is no input of its own: it is
delivered as a completed write message with arguments of zeros, and the StopOrRestart that dispatches it is the next
input (log 7, log 8). -/
def State.withFetchWord (s : State) (nbits w : Nat) : State :=
  if 8 < nbits then { s with inputs := .event (BitVec.ofNat 12 w) :: s.inputs }
  else if w < 4 then { s with inputs := .foreground (BitVec.ofNat 2 w) :: s.inputs }
  else
    deliverMessage (BitVec.ofNat 8 w :: zeroArgs s.config (BitVec.ofNat 8 w))
      { s with inputs := .event (eventWord 0x3 0) :: s.inputs }

end Sys2Proof.Machine
end

