-- ==== Sys2Proof/Safety.lean ====
section
/-! DEFINITION. The engine's invariants (10_state.md R34) and what counts as a safe outcome of a step. -/

namespace Sys2Proof.Machine

/-- I1: the counters' ranges (10_state.md R34). -/
abbrev State.CountersInRange (s : State) : Prop :=
  s.rxCount ≤ 34 ∧ s.txCount ≤ s.txLen ∧ s.txLen ≤ 33

/-- I2 to I4: what each state says of the counters (10_state.md R34). -/
abbrev State.CountersMatchState (s : State) : Prop :=
  (s.state = .wr → s.txLen = 0 ∧ s.txCount = 0) ∧
  (s.state = .wtrr → 1 ≤ s.txLen ∧ s.txLen ≤ 33 ∧ s.txCount = 0 ∧ 1 ≤ s.rxCount) ∧
  (s.state = .rr → 1 ≤ s.txCount ∧ s.txCount ≤ s.txLen)

/-- I5: within a transaction ERR means overflow (10_state.md R34). -/
abbrev State.ErrMeansOverflow (s : State) : Prop :=
  s.err = true → s.state ≠ .idle → s.rxCount = 34

/-- The byte at an index was written in the current transaction, and holds a value (10_state.md R34, I6, I7). -/
def State.holdsByte (s : State) (b : Buffer) (i : Nat) : Bool :=
  (s.written b).contains i && ((s.mem b).get i).isSome

/-- I6: every byte of rx that RXCOUNT counts was written in the current transaction (10_state.md R34). -/
abbrev State.ReceivedBytesWritten (s : State) : Prop :=
  s.state ≠ .idle → ∀ i, i < s.rxCount → s.holdsByte .rx i = true

/-- I7: every byte of tx that TXLEN counts was written in the current transaction, and by the upcall that prepared the
read: in WR, that is before the upcall, the transaction has written no byte of tx (10_state.md R34). -/
abbrev State.PreparedBytesWritten (s : State) : Prop :=
  (s.state = .wr → s.txWritten = []) ∧
  (s.state = .wtrr ∨ s.state = .rr → ∀ i, i < s.txLen → s.holdsByte .tx i = true)

/-- I6 and I7: every byte a rule may read was written in the current transaction (10_state.md R34). -/
abbrev State.BytesWritten (s : State) : Prop := s.ReceivedBytesWritten ∧ s.PreparedBytesWritten

/-- Both buffers are in canonical form, within their capacities (20_memory.md R52). -/
abbrev State.BuffersCanonical (s : State) : Prop :=
  Memory.wf Config.rxCap s.rx = true ∧ Memory.wf Config.txCap s.tx = true

/-- The invariants of 10_state.md R34 with the buffers' canonical form. -/
abbrev State.Inv (s : State) : Prop :=
  s.CountersInRange ∧ s.CountersMatchState ∧ s.ErrMeansOverflow ∧ s.BytesWritten ∧ s.BuffersCanonical

/-- The faults of the model that the spec shows unreachable (10_state.md R32; 20_memory.md R50). -/
def Fault.isMemoryFault : Fault → Bool
  | .unwrittenByte _ _ => true
  | .outOfRange _ _ => true
  | .handlerStuck _ => false

/-- The one refusal the spec describes (43_dispatcher.md R178). -/
def Refusal.isHandlerContract : Refusal → Bool
  | .handlerContract _ _ => true
  | _ => false

/-- A bus event, that is, an instruction the event agent runs for an event word (00_scope.md R9). -/
def isBusEvent : Instr → Bool
  | .amw => true
  | .dra _ => true
  | .drn _ => true
  | .sor => true
  | .amr => true
  | .dta => true
  | .dtn => true
  | .ldtau => true
  | .be => true
  | .unr => true
  | .unrRsvAB _ => true
  | .unrRsvCF _ => true
  | .fgInit => false
  | .fgEnable => false
  | .fgDisable => false
  | .fgReadErr => false
  | .cmdIdentify _ _ => false
  | .cmdSetMotorType _ _ => false
  | .cmdSetTimerDivider _ _ => false
  | .cmdEnableOutputs _ _ => false
  | .cmdDisableOutputs _ _ => false
  | .cmdSetSpeed _ _ => false
  | .cmdSetDirection _ _ => false
  | .cmdSetStepCount _ _ => false
  | .cmdStepForward _ _ => false
  | .cmdStepBackward _ _ => false
  | .cmdStepsForward _ _ => false
  | .cmdStepsBackward _ _ => false
  | .cmdStepSpeed _ _ => false
  | .cmdStepRemaining _ _ => false
  | .cmdStepRelease _ _ => false

/-- A foreground operation (30_encoding.md R77). -/
def isForegroundOp (i : Instr) : Bool := !isBusEvent i && i.commandParts.isNone

/-- What a run may end in: a next state, a handler that hangs, or a handler that breaks its contract. Never a fault
of a buffer access (10_state.md R32) and never a missing meaning. -/
def safeOutcome : Host.Outcome State Fault Refusal → Bool
  | .next _ => true
  | .fault f => !f.isMemoryFault
  | .refused r => r.isHandlerContract

/-- The given number of steps, ended by the first fault or refusal. -/
def stepMany : Nat → State → Host.Outcome State Fault Refusal
  | 0, s => .next s
  | k + 1, s =>
    match step s with
    | .next t => stepMany k t
    | .fault f => .fault f
    | .refused r => .refused r

/-- A trace event without the EN a handler saw. -/
def TraceEvent.eraseEnabled : TraceEvent → TraceEvent
  | .cause c => .cause c
  | .handlerCall code args _ => .handlerCall code args false

/-- A state without EN and without what the trace says of it: what a bus master can tell of it. -/
def State.eraseEnabled (s : State) : State :=
  { s with en := false, trace := s.trace.map TraceEvent.eraseEnabled }

/-- Two outcomes that differ in EN alone (10_state.md R26). -/
def sameButEnabled : Host.Outcome State Fault Refusal → Host.Outcome State Fault Refusal → Prop
  | .next s, .next t => s.eraseEnabled = t.eraseEnabled
  | .fault f, .fault g => f = g
  | .refused r, .refused q => r = q
  | _, _ => False

end Sys2Proof.Machine
end

