-- ==== Sys2Proof/WellFormed.lean ====
section
/-! DEFINITION. When an instruction and a configuration are well formed. -/

namespace Sys2Proof

/-- A command instruction carries a code that the table binds to that command, and exactly the arguments its declared
length asks for (44_commands.md R190, R195; 43_dispatcher.md R173). Every other term is well formed. -/
def Instr.wf (cfg : Config) (i : Instr) : Bool :=
  match i.commandParts with
  | none => true
  | some (c, code, args) =>
    decide (cfg.lookup code = some (.default c)) && decide (args.length + 1 = c.declaredLength)

/-- An entry's declared length lies in 1..34 (44_commands.md R190). -/
def Entry.wf (e : Entry) : Bool := decide (1 ≤ e.declaredLength ∧ e.declaredLength ≤ 34)

/-- The codes of the table are pairwise distinct and every entry is well formed (00_scope.md R8; 44_commands.md
R190, R195). -/
def Config.wf (cfg : Config) : Bool :=
  decide (cfg.table.map Prod.fst).Nodup && cfg.table.all fun p => p.2.wf

end Sys2Proof
end

