-- ==== Sys2Proof/Certificates/Slice0/Obligations.lean ====
section
/-! DEFINITION. The statements for the provers. The helpers in namespace Sys2Proof.Stated say what the rules of spec/
give, field by field, and call no operation of the machine but the reading of one byte, of the draw in use and of its reply to a call. -/

namespace Sys2Proof.Stated

open Sys2Proof.Machine

/-- The outcome is a next state, which is `t` but for what counts as written in the current transaction: that is the
model's reading (log 5), and the statement MarksFollowTheWrites says it of every instruction. -/
def AnswersButMarks (o : Host.Outcome State Fault Refusal) (t : State) : Prop :=
  ∃ u, o = .next u ∧ { u with rxWritten := t.rxWritten, txWritten := t.txWritten } = t

/-- The state the entry action leaves (40_receive.md R101), but for the marks of the transaction it starts in Idle. -/
def afterEntry (s : State) : State :=
  if s.state = .idle then { s with rxCount := 0, txCount := 0, txLen := 0, err := false } else s

/-- The end of an event step that abandons: ERR 1, STATE Idle, the counters as the entry action left them, the cause in
the trace (60_exceptions.md R241), with the ACK and stop its rule gives and no byte emitted. -/
def abandoned (s : State) (c : Cause) (ack stop : Bool) : State :=
  { afterEntry s with
    state := .idle, err := true, ack := ack, txValid := false, stop := stop, trace := .cause c :: s.trace }

/-- The outputs an event step ends with when it acknowledges, emits no byte and asks for no stop. -/
def acknowledged (s : State) : State := { s with ack := true, txValid := false, stop := false }

/-- A completed write message in WR with ERR 0 (43_dispatcher.md R170): code in rx[0], the arguments after it, every
byte of it written in the current transaction (10_state.md R34, I6). -/
def CompletesMessage (s : State) (code : Byte) (args : List Byte) : Prop :=
  s.state = .wr ∧ s.err = false ∧ s.rxCount = args.length + 1 ∧ args.length + 1 ≤ 34 ∧
    ∀ i, i < args.length + 1 → i ∈ s.rxWritten ∧ s.rx.get i = (code :: args)[i]?

/-- The message whose handler an instruction may call: that of a StopOrRestart that completes one, or a command's own
(43_dispatcher.md R170). -/
def AsksFor (i : Instr) (s : State) (code : Byte) (args : List Byte) : Prop :=
  (i = .sor ∧ CompletesMessage s code args) ∨ ∃ c, i.commandParts = some (c, code, args)

/-- The reply the oracle in use gives to the call of a message, with the EN of the state (44_commands.md R191). -/
def replyOf (s : State) (code : Byte) (args : List Byte) : Reply := replyTo s.currentDraw ⟨code, args, s.en⟩

/-- A handler's answer to the call of a message: the result kind of 44_commands.md R195 for a default command, with its
open part the oracle's; for an external entry the oracle's answer. -/
def answerOf (s : State) (code : Byte) (args : List Byte) : Entry → HandlerResult
  | .default .identify => .respond [s.config.idByte]
  | .default .setMotorType => if (replyOf s code args).accepts then .done else .reject
  | .default .setTimerDivider => if (replyOf s code args).accepts then .done else .reject
  | .default .enableOutputs => .done
  | .default .disableOutputs => .done
  | .default .setSpeed => if (replyOf s code args).accepts then .done else .reject
  | .default .setDirection => if (replyOf s code args).accepts then .done else .reject
  | .default .setStepCount => if (replyOf s code args).accepts then .done else .reject
  | .default .stepForward => .done
  | .default .stepBackward => .done
  | .default .stepsForward => .done
  | .default .stepsBackward => .done
  | .default .stepSpeed => if (replyOf s code args).accepts then .done else .reject
  | .default .stepRemaining => .respond [if (replyOf s code args).stepRunning then 1 else 0]
  | .default .stepRelease => .done
  | .external _ => (replyOf s code args).answer

/-- One draw used up. -/
def drew (s : State) : State := { s with draws := s.draws.tail, drawCount := s.drawCount + 1 }

/-- The dispatcher's end on a rejecting handler: ERR 1, STATE Idle, no handler call in the trace
(43_dispatcher.md R174). -/
def rejected (s : State) : State :=
  { drew s with state := .idle, err := true, trace := .cause .handlerReject :: s.trace }

/-- The dispatcher's end on a handler that is done: STATE Idle, the call in the trace (43_dispatcher.md R176). -/
def called (s : State) (code : Byte) (args : List Byte) : State :=
  { drew s with state := .idle, trace := .handlerCall code args s.en :: s.trace }

/-- What a response leaves but for tx: TXLEN its length, TXCOUNT 0, STATE WTRR, the call in the trace
(43_dispatcher.md R175). -/
def responded (s : State) (code : Byte) (args : List Byte) (n : Nat) : State :=
  { drew s with
    state := .wtrr, txLen := n, txCount := 0, trace := .handlerCall code args s.en :: s.trace }

/-- The dispatcher's end on a wrong length: ERR 1, STATE Idle, no handler call (43_dispatcher.md R173). -/
def miscounted (s : State) : State :=
  { s with state := .idle, err := true, trace := .cause .argCount :: s.trace }

/-- `t` is `u` but for tx, which holds `b` from index 0 on and is otherwise that of `u`, and for the marks of tx, of
which MarksFollowTheWrites speaks. -/
def WithResponse (t u : State) (b : List Byte) : Prop :=
  { t with tx := u.tx, txWritten := u.txWritten } = u ∧ (∀ k, k < b.length → t.tx.get k = b[k]?) ∧
    ∀ k, b.length ≤ k → t.tx.get k = u.tx.get k

/-- A command whose handler only answers Done: at the exact length it completes, at any other it sets ERR. -/
def CompletesDone (mk : Byte → List Byte → Instr) (length : Nat) : Prop :=
  ∀ (code : Byte) (args : List Byte) (s : State),
    (args.length + 1 = length → (replyOf s code args).returns = true → exec (mk code args) s = .next (called s code args)) ∧
    (args.length + 1 ≠ length → exec (mk code args) s = .next (miscounted s))

/-- A command whose handler answers Done or Reject: which one is the oracle's answer to the call. -/
def CompletesDoneOrReject (mk : Byte → List Byte → Instr) (length : Nat) : Prop :=
  ∀ (code : Byte) (args : List Byte) (s : State),
    (args.length + 1 = length → (replyOf s code args).returns = true →
      ((replyOf s code args).accepts = true → exec (mk code args) s = .next (called s code args)) ∧
      ((replyOf s code args).accepts = false → exec (mk code args) s = .next (rejected s))) ∧
    (args.length + 1 ≠ length → exec (mk code args) s = .next (miscounted s))

/-- A command of length 1 whose handler responds with one byte. -/
def CompletesWithByte (mk : Byte → List Byte → Instr)
    (byte : State → Byte → List Byte → Byte) : Prop :=
  ∀ (code : Byte) (args : List Byte) (s : State),
    (args.length + 1 = 1 → (replyOf s code args).returns = true →
      ∃ t, exec (mk code args) s = .next t ∧ WithResponse t (responded s code args 1) [byte s code args]) ∧
    (args.length + 1 ≠ 1 → exec (mk code args) s = .next (miscounted s))

/-- A transaction starts with an event that arrives in Idle, with AddressMatchWrite's recovery (40_receive.md R101, R105)
and afresh with initialize (45_foreground.md R221; log 5). -/
def StartsTransaction (i : Instr) (s : State) : Prop :=
  (isBusEvent i = true ∧ s.state = .idle) ∨ i = .amw ∨ i = .fgInit

/-- The kind of bus event an instruction is (30_encoding.md R71, R73). -/
def eventKind : Instr → Option BusEvent
  | .amw => some .addressMatchWrite
  | .dra _ => some .dataReceivedAck
  | .drn _ => some .dataReceivedNack
  | .sor => some .stopOrRestart
  | .amr => some .addressMatchRead
  | .dta => some .dataTransmittedAck
  | .dtn => some .dataTransmittedNack
  | .ldtau => some .lastDataTransmittedAckUnexpected
  | .be => some .busError
  | .unr => some .unrecognized
  | .unrRsvAB _ => some .unrecognized
  | .unrRsvCF _ => some .unrecognized
  | _ => none

/-- The spec's test-only bindings (95_test_vectors.md section 0), its eleven unnamed codes chosen freely, with the
default binding of the statuses: a concrete configuration for a sanity statement and the tests. -/
def testConfig : Config where
  table :=
    [(0x01, .default .identify), (0x02, .default .setMotorType), (0x10, .default .setSpeed),
     (0x20, .default .stepRemaining), (0x30, .default .setTimerDivider), (0x31, .default .enableOutputs),
     (0x32, .default .disableOutputs), (0x33, .default .setDirection), (0x34, .default .setStepCount),
     (0x35, .default .stepForward), (0x36, .default .stepBackward), (0x37, .default .stepsForward),
     (0x38, .default .stepsBackward), (0x39, .default .stepSpeed), (0x3A, .default .stepRelease),
     (0x50, .external 2)]
  idByte := 0x5A
  statusMap := defaultStatusMap

end Sys2Proof.Stated

open Sys2Proof Sys2Proof.Machine Sys2Proof.Stated

/-! ### Encoding -/

/-- Decoding the encoding of a well-formed instruction gives it back, every operand at every value
(30_encoding.md R70, R71, R77, R78). -/
def Obligations.DecodeOfEncodeIsIdentity : Prop :=
  ∀ (cfg : Config) (i : Instr), i.wf cfg = true → decode cfg (encode i) = .ok i

/-- The tag table (30_encoding.md R71), for every data field. That a reserved tag, which the rule decodes as
Unrecognized, is one of the constructors `unrRsvAB` and `unrRsvCF` is the model's choice: log 16. -/
def Obligations.EventTagTable : Prop :=
  ∀ d : Byte,
    decodeEvent (0x0#4 ++ d) = .amw ∧ decodeEvent (0x1#4 ++ d) = .dra d ∧ decodeEvent (0x2#4 ++ d) = .drn d ∧
    decodeEvent (0x3#4 ++ d) = .sor ∧ decodeEvent (0x4#4 ++ d) = .amr ∧ decodeEvent (0x5#4 ++ d) = .dta ∧
    decodeEvent (0x6#4 ++ d) = .dtn ∧ decodeEvent (0x7#4 ++ d) = .ldtau ∧ decodeEvent (0x8#4 ++ d) = .be ∧
    decodeEvent (0x9#4 ++ d) = .unr ∧ decodeEvent (0xA#4 ++ d) = .unrRsvAB 0 ∧
    decodeEvent (0xB#4 ++ d) = .unrRsvAB 1 ∧ decodeEvent (0xC#4 ++ d) = .unrRsvCF 0 ∧
    decodeEvent (0xD#4 ++ d) = .unrRsvCF 1 ∧ decodeEvent (0xE#4 ++ d) = .unrRsvCF 2 ∧
    decodeEvent (0xF#4 ++ d) = .unrRsvCF 3

/-- Every event word is one bus event, and a reserved tag behaves as Unrecognized (30_encoding.md R73). -/
def Obligations.EveryEventWordIsOneEvent : Prop :=
  ∀ w : EventWord, ∃ e, eventKind (decodeEvent w) = some e ∧
    (10 ≤ (eventTag w).toNat → e = .unrecognized ∧ ∀ s, exec (decodeEvent w) s = exec .unr s)

/-- The data field is an operand of tags 1 and 2 alone, and DataReceivedNack's byte is not stored
(30_encoding.md R72). -/
def Obligations.DataFieldOnlyForReceivedBytes : Prop :=
  (∀ (tag : BitVec 4) (d d' : Byte), tag ≠ 0x1 → tag ≠ 0x2 →
    decodeEvent (eventWord tag d) = decodeEvent (eventWord tag d')) ∧
  (∀ d : Byte, decodeEvent (eventWord 0x1 d) = .dra d ∧ decodeEvent (eventWord 0x2 d) = .drn d) ∧
  ∀ (d d' : Byte) (s : State), exec (.drn d) s = exec (.drn d') s

/-- Words written out from the spec's encodings decode to what they stand for (95_test_vectors.md section 2.4;
30_encoding.md R71, R77; the message under the test-only bindings of 95_test_vectors.md section 0). That the reserved
tag of V-X3, which the vector decodes as Unrecognized, is the constructor `unrRsvAB` is the model's choice: log 16. -/
def Obligations.WrittenOutWordsDecode : Prop :=
  decodeEvent 0x1FF#12 = .dra 0xFF ∧ decodeEvent 0x3AB#12 = .sor ∧ decodeEvent 0xB12#12 = .unrRsvAB 1 ∧
  decodeEvent 0x500#12 = .dta ∧ decodeForeground 0b00#2 = .fgInit ∧ decodeForeground 0b11#2 = .fgReadErr ∧
  decode testConfig (.message [0x10, 0x64, 0x32]) = .ok (.cmdSetSpeed 0x10 [0x64, 0x32])

/-- What the decoder accepts is well formed, and a message or an op is the encoding of what it decodes to. -/
def Obligations.DecodedTermsAreWellFormed : Prop :=
  ∀ (cfg : Config) (e : Encoded) (i : Instr), decode cfg e = .ok i →
    i.wf cfg = true ∧ ((∃ w, e = .event w) ∨ encode i = e)

/-- A raw status stands for the event word of its event with the data register in the data field, and a status that
is not mapped is Unrecognized (30_encoding.md R76). The codes of the default binding are the spec's from general
knowledge (log 12): they are stated of configurations that hold them. -/
def Obligations.RawStatusIsTranslatedOnce : Prop :=
  (∀ (cfg : Config) (status data : Byte),
    decodeInput cfg (.raw status data) = decodeInput cfg (.event ((cfg.statusDecode status).tag ++ data)) ∧
    ((∀ p ∈ cfg.statusMap, p.1 ≠ status) → decodeInput cfg (.raw status data) = .unr)) ∧
  ∀ (cfg : Config) (data : Byte), cfg.statusMap = defaultStatusMap →
    decodeInput cfg (.raw 0x60 data) = .amw ∧ decodeInput cfg (.raw 0x80 data) = .dra data ∧
    decodeInput cfg (.raw 0x88 data) = .drn data ∧ decodeInput cfg (.raw 0xA0 data) = .sor ∧
    decodeInput cfg (.raw 0xA8 data) = .amr ∧ decodeInput cfg (.raw 0xB8 data) = .dta ∧
    decodeInput cfg (.raw 0xC0 data) = .dtn ∧ decodeInput cfg (.raw 0xC8 data) = .ldtau ∧
    decodeInput cfg (.raw 0x00 data) = .be ∧ decodeInput cfg (.raw 0x70 data) = .unr ∧
    decodeInput cfg (.raw 0xF8 data) = .unr

/-- The default table, for any pairwise distinct codes, binds each command to its code with the length of
44_commands.md R195 and no other byte to anything. -/
def Obligations.DefaultTableBindsTheCommands : Prop :=
  ∀ (code : Command → Byte) (cfg : Config), (∀ c c', code c = code c' → c = c') → cfg.table = defaultTable code →
    (∀ c, cfg.lookup (code c) = some (.default c)) ∧ (∀ b, (∀ c, code c ≠ b) → cfg.lookup b = none) ∧
    cfg.wf = true ∧ Command.identify.declaredLength = 1 ∧ Command.setMotorType.declaredLength = 2 ∧
    Command.setTimerDivider.declaredLength = 2 ∧ Command.enableOutputs.declaredLength = 1 ∧
    Command.disableOutputs.declaredLength = 1 ∧ Command.setSpeed.declaredLength = 3 ∧
    Command.setDirection.declaredLength = 3 ∧ Command.setStepCount.declaredLength = 3 ∧
    Command.stepForward.declaredLength = 1 ∧ Command.stepBackward.declaredLength = 1 ∧
    Command.stepsForward.declaredLength = 1 ∧ Command.stepsBackward.declaredLength = 1 ∧
    Command.stepSpeed.declaredLength = 2 ∧ Command.stepRemaining.declaredLength = 1 ∧
    Command.stepRelease.declaredLength = 1

/-! ### Steps, reset and invariants -/

/-- A step runs the oldest pending input, decoded, and takes it off the list. That the inputs are a list in the state is
the model's choice: log 6. -/
def Obligations.StepRunsTheDecodedInput : Prop :=
  ∀ (s : State) (x : Input) (rest : List Input), s.inputs = x :: rest →
    step s = exec (decodeInput s.config x) { s with inputs := rest } ∧
    (∀ w, x = .event w → step s = exec (decodeEvent w) { s with inputs := rest }) ∧
    ∀ op, x = .foreground op → step s = exec (decodeForeground op) { s with inputs := rest }

/-- With no input pending a step changes nothing. The model's choice: log 6. -/
def Obligations.StepWithoutInputChangesNothing : Prop :=
  ∀ s : State, s.inputs = [] → step s = .next s

/-- The StopOrRestart that completes a message runs the command the message decodes to (43_dispatcher.md R170). That a
command row runs there and has no step of its own is the model's choice: log 7. -/
def Obligations.SorRunsTheDecodedCommand : Prop :=
  ∀ (s : State) (code : Byte) (args : List Byte) (i : Instr), CompletesMessage s code args →
    decodeMessage s.config (code :: args) = .ok i → exec .sor s = exec i (acknowledged s)

/-- The values the spec gives for reset (10_state.md R36); of TXDATA the spec gives none and nothing is said. That the
marks of the current transaction are lists in the state is the model's choice: log 5. -/
def Obligations.ResetLeavesTheStatedValues : Prop :=
  State.reset.state = .idle ∧ State.reset.rxCount = 0 ∧ State.reset.txLen = 0 ∧ State.reset.txCount = 0 ∧
  State.reset.err = false ∧ State.reset.en = false ∧ State.reset.ack = true ∧ State.reset.txValid = false ∧
  State.reset.stop = false ∧ (∀ i, State.reset.rx.get i = none ∧ State.reset.tx.get i = none) ∧
  State.reset.rxWritten = [] ∧ State.reset.txWritten = []

/-- The invariants hold at reset. -/
def Obligations.ResetMeetsTheInvariants : Prop := State.reset.Inv

/-- Every step keeps the invariants of 10_state.md R34 and the buffers' canonical form. -/
def Obligations.StepKeepsTheInvariants : Prop :=
  ∀ s t : State, s.Inv → step s = .next t → t.Inv

/-- Under the invariants no step reads a byte that the current transaction has not written or beyond a buffer, and a step always answers a next state but
for a handler that hangs or breaks its contract (10_state.md R32; 43_dispatcher.md R178; 70_reset_and_hazards.md
R280). -/
def Obligations.InvariantsExcludeBufferFaults : Prop :=
  ∀ s : State, s.Inv → safeOutcome (step s) = true

/-! ### Bus events -/

/-- AddressMatchWrite (40_receive.md R105). -/
def Obligations.AmwStartsAWrite : Prop :=
  ∀ s : State, AnswersButMarks (exec .amw s) { s with
    state := .wr, rxCount := 0, txCount := 0, txLen := 0, err := false, ack := true, txValid := false, stop := false }

/-- DataReceivedAck (40_receive.md R110): the byte stored, the overflow, the states outside a write. -/
def Obligations.DraStoresOrFlagsOrAbandons : Prop :=
  ∀ (d : Byte) (s : State),
    ((s.state = .wr ∨ s.state = .wtrr) → s.rxCount < 34 →
      ∃ t, exec (.dra d) s = .next t ∧ t.rx.get s.rxCount = some d ∧
        (∀ a, a ≠ s.rxCount → t.rx.get a = s.rx.get a) ∧
        { t with rx := s.rx, rxWritten := s.rxWritten } = { s with
          rxCount := s.rxCount + 1, ack := decide (s.rxCount + 1 < 34), txValid := false, stop := false }) ∧
    ((s.state = .wr ∨ s.state = .wtrr) → 34 ≤ s.rxCount →
      exec (.dra d) s = .next { s with
        err := true, ack := false, txValid := false, stop := false, trace := .cause .rxOverflow :: s.trace }) ∧
    ((s.state = .idle ∨ s.state = .rr) →
      AnswersButMarks (exec (.dra d) s) (abandoned s .unexpectedEvent true false))

/-- DataReceivedNack (40_receive.md R115). -/
def Obligations.DrnAbandonsAlways : Prop :=
  ∀ (d : Byte) (s : State), AnswersButMarks (exec (.drn d) s) (abandoned s .rxNack true false)

/-- StopOrRestart (40_receive.md R120); the upcall of a non-empty message is WriteComplete. -/
def Obligations.SorFollowsItsCases : Prop :=
  ∀ s : State,
    (s.state = .idle → AnswersButMarks (exec .sor s) (acknowledged (afterEntry s))) ∧
    (s.state = .wr → s.err = true → exec .sor s = .next { acknowledged s with state := .idle }) ∧
    (s.state = .wr → s.err = false → s.rxCount = 0 →
      exec .sor s = .next (abandoned s .malformedEmpty true false)) ∧
    (s.state = .wr → s.err = false → s.rxCount ≠ 0 → exec .sor s = writeComplete (acknowledged s)) ∧
    ((s.state = .rr ∨ s.state = .wtrr) → exec .sor s = .next (abandoned s .unexpectedEvent true false))

/-- AddressMatchRead (41_transmit.md R130) with the pure read's response (43_dispatcher.md R180). -/
def Obligations.AmrStartsARead : Prop :=
  ∀ s : State,
    (s.state = .idle →
      ∃ t, exec .amr s = .next t ∧ t.tx.get 0 = some (0xFF - s.currentDraw.statusIn) ∧
        (∀ a, a ≠ 0 → t.tx.get a = s.tx.get a) ∧
        { t with tx := s.tx, rxWritten := s.rxWritten, txWritten := s.txWritten } = { drew s with
          state := .rr, rxCount := 0, err := false, txLen := 1, txCount := 1,
          txData := 0xFF - s.currentDraw.statusIn, txValid := true, ack := true, stop := false }) ∧
    (∀ v, s.state = .wtrr → 0 ∈ s.txWritten → s.tx.get 0 = some v →
      exec .amr s = .next { s with
        state := .rr, txCount := 1, txData := v, txValid := true, ack := true, stop := false }) ∧
    ((s.state = .wr ∨ s.state = .rr) → exec .amr s = .next (abandoned s .unexpectedEvent true false))

/-- DataTransmittedAck (41_transmit.md R133, R134). -/
def Obligations.DtaSendsOrAbandons : Prop :=
  ∀ s : State,
    ((s.state = .idle ∨ s.txCount = s.txLen) →
      AnswersButMarks (exec .dta s) (abandoned s .txPastEnd false false)) ∧
    (∀ v, s.state = .rr → s.txCount ≠ s.txLen → s.txCount < 33 → s.txCount ∈ s.txWritten →
      s.tx.get s.txCount = some v →
      exec .dta s = .next { s with
        txCount := s.txCount + 1, txData := v, txValid := true, ack := true, stop := false }) ∧
    ((s.state = .wr ∨ s.state = .wtrr) → s.txCount ≠ s.txLen →
      exec .dta s = .next (abandoned s .unexpectedEvent true false))

/-- DataTransmittedNack (41_transmit.md R137). -/
def Obligations.DtnEndsARead : Prop :=
  ∀ s : State,
    (s.state = .rr → s.txCount = s.txLen → exec .dtn s = .next { acknowledged s with state := .idle }) ∧
    (s.state = .rr → s.txCount ≠ s.txLen → exec .dtn s = .next (abandoned s .txPrematureNack true false)) ∧
    (s.state ≠ .rr → AnswersButMarks (exec .dtn s) (abandoned s .unexpectedEvent true false))

/-- LastDataTransmittedAckUnexpected (41_transmit.md R140). -/
def Obligations.LdtauAbandonsAlways : Prop :=
  ∀ s : State, AnswersButMarks (exec .ldtau s) (abandoned s .txLastUnexpected true false)

/-- BusError (42_error_events.md R150). -/
def Obligations.BusErrorStopsAndAbandons : Prop :=
  ∀ s : State, AnswersButMarks (exec .be s) (abandoned s .busError true true)

/-- Unrecognized and the reserved tags (42_error_events.md R153). -/
def Obligations.UnrecognizedAbandonsAlways : Prop :=
  ∀ s : State, AnswersButMarks (exec .unr s) (abandoned s .unrecognized true false) ∧
    (∀ low, AnswersButMarks (exec (.unrRsvAB low) s) (abandoned s .unrecognized true false)) ∧
    ∀ low, AnswersButMarks (exec (.unrRsvCF low) s) (abandoned s .unrecognized true false)

/-! ### The dispatcher -/

/-- An unknown command (43_dispatcher.md R172). -/
def Obligations.UnknownCommandSetsErr : Prop :=
  ∀ (s : State) (code : Byte) (args : List Byte), CompletesMessage s code args → s.config.lookup code = none →
    exec .sor s = .next { acknowledged s with
      state := .idle, err := true, trace := .cause .unknownCmd :: s.trace }

/-- A message of the wrong length (43_dispatcher.md R173). -/
def Obligations.WrongLengthSetsErr : Prop :=
  ∀ (s : State) (code : Byte) (args : List Byte) (e : Entry), CompletesMessage s code args →
    s.config.lookup code = some e → s.rxCount ≠ e.declaredLength →
    exec .sor s = .next (miscounted (acknowledged s))

/-- A rejecting handler (43_dispatcher.md R174). -/
def Obligations.RejectedMessageSetsErr : Prop :=
  ∀ (s : State) (code : Byte) (args : List Byte) (e : Entry), CompletesMessage s code args →
    s.config.lookup code = some e → s.rxCount = e.declaredLength → (replyOf s code args).returns = true →
    answerOf s code args e = .reject → exec .sor s = .next (rejected (acknowledged s))

/-- A response of 1 to 33 bytes (43_dispatcher.md R175). -/
def Obligations.ResponseArmsTheRead : Prop :=
  ∀ (s : State) (code : Byte) (args : List Byte) (e : Entry) (b : List Byte), CompletesMessage s code args →
    s.config.lookup code = some e → s.rxCount = e.declaredLength → (replyOf s code args).returns = true →
    answerOf s code args e = .respond b → 1 ≤ b.length → b.length ≤ 33 →
    ∃ t, exec .sor s = .next t ∧ WithResponse t (responded (acknowledged s) code args b.length) b

/-- A handler that is done, and an empty response, which acts as Done (43_dispatcher.md R176, R177). -/
def Obligations.DoneOrEmptyResponseEndsInIdle : Prop :=
  ∀ (s : State) (code : Byte) (args : List Byte) (e : Entry), CompletesMessage s code args →
    s.config.lookup code = some e → s.rxCount = e.declaredLength → (replyOf s code args).returns = true →
    (answerOf s code args e = .done ∨ answerOf s code args e = .respond []) →
    exec .sor s = .next (called (acknowledged s) code args)

/-- A response that does not fit tx is refused (43_dispatcher.md R178). -/
def Obligations.OverlongResponseIsRefused : Prop :=
  ∀ (s : State) (code : Byte) (args : List Byte) (e : Entry) (b : List Byte), CompletesMessage s code args →
    s.config.lookup code = some e → s.rxCount = e.declaredLength → (replyOf s code args).returns = true →
    answerOf s code args e = .respond b → 33 < b.length → exec .sor s = .refused (.handlerContract code b.length)

/-- A handler that does not return leaves the event agent stuck, for a message of any entry and for each command
(70_reset_and_hazards.md R280). -/
def Obligations.HangingHandlerIsStuck : Prop :=
  (∀ (s : State) (code : Byte) (args : List Byte) (e : Entry), CompletesMessage s code args →
    s.config.lookup code = some e → s.rxCount = e.declaredLength → (replyOf s code args).returns = false →
    exec .sor s = .fault (.handlerStuck code)) ∧
  ∀ (s : State) (i : Instr) (c : Command) (code : Byte) (args : List Byte),
    i.commandParts = some (c, code, args) → args.length + 1 = c.declaredLength → (replyOf s code args).returns = false →
    exec i s = .fault (.handlerStuck code)

/-! ### Commands -/

/-- The commands whose handler answers Done (44_commands.md R199, R200, R204 to R207, R210). -/
def Obligations.DoneCommandsComplete : Prop :=
  CompletesDone .cmdEnableOutputs 1 ∧ CompletesDone .cmdDisableOutputs 1 ∧ CompletesDone .cmdStepForward 1 ∧
  CompletesDone .cmdStepBackward 1 ∧ CompletesDone .cmdStepsForward 1 ∧ CompletesDone .cmdStepsBackward 1 ∧
  CompletesDone .cmdStepRelease 1

/-- The commands whose handler answers Done or Reject (44_commands.md R197, R198, R201 to R203, R208). -/
def Obligations.AcceptingCommandsComplete : Prop :=
  CompletesDoneOrReject .cmdSetMotorType 2 ∧ CompletesDoneOrReject .cmdSetTimerDivider 2 ∧
  CompletesDoneOrReject .cmdSetSpeed 3 ∧ CompletesDoneOrReject .cmdSetDirection 3 ∧
  CompletesDoneOrReject .cmdSetStepCount 3 ∧ CompletesDoneOrReject .cmdStepSpeed 2

/-- The commands whose handler responds with one byte (44_commands.md R196, R209). -/
def Obligations.RespondingCommandsComplete : Prop :=
  CompletesWithByte .cmdIdentify (fun s _ _ => s.config.idByte) ∧
  CompletesWithByte .cmdStepRemaining (fun s code args => if (replyOf s code args).stepRunning then 1 else 0)

/-- A command writes neither rx, the outputs, EN, the parameters nor the pending inputs (43_dispatcher.md R179;
44_commands.md R193, R199). -/
def Obligations.CommandsLeaveTheRest : Prop :=
  ∀ (i : Instr) (s t : State), i.commandParts.isSome = true → exec i s = .next t →
    t.rx = s.rx ∧ t.rxCount = s.rxCount ∧ t.rxWritten = s.rxWritten ∧ t.ack = s.ack ∧ t.txData = s.txData ∧ t.txValid = s.txValid ∧
    t.stop = s.stop ∧ t.en = s.en ∧ t.fgResult = s.fgResult ∧ t.config = s.config ∧ t.inputs = s.inputs ∧
    (t.state ≠ .wtrr → t.tx = s.tx ∧ t.txWritten = s.txWritten ∧ t.txLen = s.txLen ∧ t.txCount = s.txCount) ∧
    (t.state = .wtrr → t.err = s.err)

/-! ### The foreground -/

/-- FG_INIT (45_foreground.md R221); of TXDATA, which becomes unwritten, nothing is said. What stays as it was, and that
the port then holds no result, is the model's choice: log 14, log 10; that no byte is then one of the current transaction
is log 5. -/
def Obligations.FgInitResetsTheEngine : Prop :=
  ∀ s : State, ∃ t, exec .fgInit s = .next t ∧ { t with txData := s.txData } = { s with
    state := .idle, rxCount := 0, txLen := 0, txCount := 0, err := false, en := false, rx := [], tx := [],
    ack := true, txValid := false, stop := false, rxWritten := [], txWritten := [], fgResult := none }

/-- FG_ENABLE and FG_DISABLE (45_foreground.md R222, R223): EN is written. That tx_valid and stop are driven to 0 is
the model's reading of "changes nothing else" beside 00_scope.md R11 and 10_state.md R28, R29: log 15. That the port
then holds no result is the model's choice: log 10. -/
def Obligations.FgEnableAndDisableWriteEnabledOnly : Prop :=
  ∀ s : State, exec .fgEnable s = .next { s with en := true, txValid := false, stop := false, fgResult := none } ∧
    exec .fgDisable s = .next { s with en := false, txValid := false, stop := false, fgResult := none }

/-- FG_READ_ERR (45_foreground.md R224): ERR is the result. That tx_valid and stop are driven to 0 is the model's
reading of "changes no state" beside 00_scope.md R11 and 10_state.md R28, R29: log 15. That the result stands in a field
of the state is the model's choice: log 10. -/
def Obligations.FgReadErrReturnsErr : Prop :=
  ∀ s : State, exec .fgReadErr s = .next { s with txValid := false, stop := false, fgResult := some s.err }

/-! ### The whole machine -/

/-- What earlier steps left in the counters and ERR, and which bytes they wrote, does not reach an event that arrives in
Idle (40_receive.md R101), and what they left on the outputs reaches no event (R100). -/
def Obligations.EventsStartAfresh : Prop :=
  ∀ (i : Instr) (s : State), isBusEvent i = true →
    (∀ a v p, exec i { s with ack := a, txValid := v, stop := p } = exec i s) ∧
    (s.state = .idle → ∀ n m k e r w,
      exec i { s with rxCount := n, txLen := m, txCount := k, err := e, rxWritten := r, txWritten := w } =
        exec i s)

/-- A bus event leaves ACK 0 exactly when it fills or overflows rx, or is acknowledged past the end
(42_error_events.md R157). -/
def Obligations.AckIsZeroInTwoCases : Prop :=
  ∀ (i : Instr) (s t : State), isBusEvent i = true → exec i s = .next t →
    (t.ack = false ↔
      ((∃ d, i = .dra d) ∧ (s.state = .wr ∨ s.state = .wtrr) ∧ 33 ≤ s.rxCount) ∨
      (i = .dta ∧ (s.state = .idle ∨ s.txCount = s.txLen)))

/-- Every event but AMW, DRA, AMR, DTA and SOR ends in Idle from every state (42_error_events.md R157). -/
def Obligations.OtherEventsEndInIdle : Prop :=
  ∀ (i : Instr) (s : State), isBusEvent i = true → i ≠ .amw → (∀ d, i ≠ .dra d) → i ≠ .amr → i ≠ .dta → i ≠ .sor →
    ∃ t, exec i s = .next t ∧ t.state = .idle

/-- Only BusError asserts stop, only AMR and DTA emit a byte, and TXDATA changes with an emitted byte alone
(10_state.md R28, R29). -/
def Obligations.OutputsOfABusEvent : Prop :=
  ∀ (i : Instr) (s t : State), isBusEvent i = true → exec i s = .next t →
    (t.stop = true ↔ i = .be) ∧ (t.txValid = true → i = .amr ∨ i = .dta) ∧
    (t.txValid = false → t.txData = s.txData)

/-- Only DataReceivedAck and initialize write rx; only the upcalls' events, the commands and initialize write tx
(10_state.md R30, R31). -/
def Obligations.OnlyOwnersWriteTheBuffers : Prop :=
  ∀ (i : Instr) (s t : State), exec i s = .next t →
    (t.rx ≠ s.rx → (∃ d, i = .dra d) ∨ i = .fgInit) ∧
    (t.tx ≠ s.tx → i = .sor ∨ i = .amr ∨ i.commandParts.isSome = true ∨ i = .fgInit)

/-- Only the foreground writes EN (10_state.md R26), and no instruction writes the parameters or the pending inputs
(20_memory.md R61). -/
def Obligations.OnlyForegroundWritesEnabled : Prop :=
  ∀ (i : Instr) (s t : State), exec i s = .next t →
    (t.en ≠ s.en → i = .fgInit ∨ i = .fgEnable ∨ i = .fgDisable) ∧ t.config = s.config ∧ t.inputs = s.inputs

/-- EN reaches a bus event or a command through the call of its handler alone: where the oracle in use answers the call
that is asked, if any, alike for both values of EN, the outcomes differ in EN, and in the EN the trace shows, alone
(10_state.md R26; 44_commands.md R194). An instruction that asks for no call meets the premise in every state. -/
def Obligations.EnabledFlagDoesNotGateTheBus : Prop :=
  ∀ (i : Instr) (s : State) (b : Bool), isForegroundOp i = false →
    (∀ code args, AsksFor i s code args →
      replyTo s.currentDraw ⟨code, args, b⟩ = replyTo s.currentDraw ⟨code, args, s.en⟩) →
    sameButEnabled (exec i { s with en := b }) (exec i s)

/-- ERR is cleared by an event that arrives in Idle, by AddressMatchWrite and by initialize, and by nothing else
(10_state.md R25). -/
def Obligations.ErrIsClearedNowhereElse : Prop :=
  ∀ (i : Instr) (s t : State), exec i s = .next t → s.err = true → t.err = false →
    (isBusEvent i = true ∧ s.state = .idle) ∨ i = .amw ∨ i = .fgInit

/-- An instruction that sets ERR records one cause, and only the overflow keeps the transaction (60_exceptions.md
R240, R241). -/
def Obligations.ErrIsSetWithACause : Prop :=
  ∀ (i : Instr) (s t : State), exec i s = .next t → s.err = false → t.err = true →
    ∃ c, t.trace = .cause c :: s.trace ∧ (t.state = .idle ↔ c ≠ .rxOverflow)

/-- Buffer accesses: a write reads back, leaves every other byte alone, and needs an index below the capacity; a read
beyond the capacity faults, and so does one of a byte that the current transaction has not written, be it a byte that no
rule has ever written or one that an earlier transaction left (20_memory.md R50, R51; 10_state.md R32;
93_implementation_defined.md item 2; log 5). -/
def Obligations.BufferAccessLaws : Prop :=
  (∀ (b : Buffer) (i : Nat) (v : Byte) (s : State), i < b.cap →
    ∃ t, memWrite b i v s = .ok t ∧ memRead b i t = .ok v ∧
      ∀ (b' : Buffer) (j : Nat), (b' ≠ b ∨ j ≠ i) → memRead b' j t = memRead b' j s) ∧
  (∀ (b : Buffer) (i : Nat) (v : Byte) (s : State), b.cap ≤ i →
    memWrite b i v s = .error (.outOfRange b i) ∧ memRead b i s = .error (.outOfRange b i)) ∧
  ∀ (b : Buffer) (i : Nat) (s : State), i < b.cap →
    ((s.mem b).get i = none ∨ i ∉ s.written b → memRead b i s = .error (.unwrittenByte b i)) ∧
    ∀ v, (s.mem b).get i = some v → i ∈ s.written b → memRead b i s = .ok v

/-! ### Phases of a transaction -/

/-- The bytes of a write phase stand in rx in arrival order, each written in the current transaction, and ACK is 0 exactly once rx is full (10_state.md R30;
40_receive.md R110, R111). -/
def Obligations.WritePhaseStoresInArrivalOrder : Prop :=
  ∀ (bytes : List Byte) (rest : List Input) (s : State), s.state = .wr → s.rxCount = 0 → bytes.length ≤ 34 →
    s.inputs = receiveInputs bytes ++ rest →
    ∃ t, stepMany bytes.length s = .next t ∧ t.state = .wr ∧ t.rxCount = bytes.length ∧ t.err = s.err ∧
      t.tx = s.tx ∧ t.inputs = rest ∧ (∀ k, k < bytes.length → k ∈ t.rxWritten ∧ t.rx.get k = bytes[k]?) ∧
      (1 ≤ bytes.length → t.ack = decide (bytes.length < 34))

/-- The bytes of a response go on the wire in index order, one for each acknowledged byte (10_state.md R31;
41_transmit.md R133). -/
def Obligations.ReadPhaseSendsInIndexOrder : Prop :=
  ∀ (n : Nat) (rest : List Input) (s : State), s.state = .rr → s.txCount + n ≤ s.txLen → s.txLen ≤ 33 →
    (∀ k, k < s.txLen → s.holdsByte .tx k = true) →
    s.inputs = List.replicate n (.event (eventWord 0x5 0)) ++ rest →
    ∃ t, stepMany n s = .next t ∧ t.state = .rr ∧ t.txCount = s.txCount + n ∧ t.txLen = s.txLen ∧ t.err = s.err ∧
      t.tx = s.tx ∧ t.rx = s.rx ∧ t.inputs = rest ∧
      (1 ≤ n → t.txValid = true ∧ t.ack = true ∧ s.tx.get (s.txCount + n - 1) = some t.txData)

/-- A message that overflows rx is never dispatched: ERR stays 1, no handler is called (70_reset_and_hazards.md
R285). -/
def Obligations.OverlongMessageIsNeverDispatched : Prop :=
  ∀ (d : Byte) (s : State), s.state = .wr → 34 ≤ s.rxCount →
    ∃ t u, exec (.dra d) s = .next t ∧ exec .sor t = .next u ∧ u.state = .idle ∧ u.err = true ∧
      u.trace = .cause .rxOverflow :: s.trace ∧ u.tx = s.tx

/-! ### Outputs of a step -/

/-- The outputs of a step: stop is 1 after a BusError alone and tx_valid after an emitted byte alone, and TXDATA changes
only with an emitted byte or with initialize (00_scope.md R11; 10_state.md R28, R29). That a foreground step too drives
both to 0, so that each is a pulse of one step of either agent, is the model's reading: log 15. A step of the engine is
one that an input makes: log 6. -/
def Obligations.OutputsArePulsesOfOneStep : Prop :=
  ∀ (s t : State) (x : Input) (rest : List Input), s.inputs = x :: rest → step s = .next t →
    (t.stop = true ↔ decodeInput s.config x = .be) ∧
    (t.txValid = true → decodeInput s.config x = .amr ∨ decodeInput s.config x = .dta) ∧
    (t.txValid = false → decodeInput s.config x ≠ .fgInit → t.txData = s.txData)

/-! ### The oracle -/

/-- The oracle is asked for the message's own call alone: two draws that reply alike to that call, the code and
arguments of the message with the EN of the state, are alike to the StopOrRestart of the message and to the command
(44_commands.md R191, R193). A draw is the model's form of the oracle: log 2. -/
def Obligations.HandlerIsAskedForItsCall : Prop :=
  (∀ (s : State) (code : Byte) (args : List Byte) (e : Entry) (d d' : Draw) (rest : List Draw),
    CompletesMessage s code args → s.config.lookup code = some e → s.rxCount = e.declaredLength →
    replyTo d ⟨code, args, s.en⟩ = replyTo d' ⟨code, args, s.en⟩ →
    exec .sor { s with draws := d :: rest } = exec .sor { s with draws := d' :: rest }) ∧
  ∀ (s : State) (i : Instr) (c : Command) (code : Byte) (args : List Byte) (d d' : Draw) (rest : List Draw),
    i.commandParts = some (c, code, args) → args.length + 1 = c.declaredLength →
    replyTo d ⟨code, args, s.en⟩ = replyTo d' ⟨code, args, s.en⟩ →
    exec i { s with draws := d :: rest } = exec i { s with draws := d' :: rest }

/-! ### The current transaction -/

/-- What counts as written in the current transaction (10_state.md R32, R34), of every instruction: whatever the
transaction had written, which is gone where one starts, and beside it the byte that a DataReceivedAck stores at
rx[RXCOUNT], the bytes of tx that a response fills, and the one byte of a pure read. That the marks are lists in the
state, and which steps start a transaction, is the model's reading: log 5. -/
def Obligations.MarksFollowTheWrites : Prop :=
  ∀ (i : Instr) (s t : State), exec i s = .next t →
    (∀ k, k ∈ t.rxWritten ↔
      (k ∈ s.rxWritten ∧ ¬ StartsTransaction i s) ∨
      ((∃ d, i = .dra d) ∧ (s.state = .wr ∨ s.state = .wtrr) ∧ s.rxCount < 34 ∧ k = s.rxCount)) ∧
    ∀ k, k ∈ t.txWritten ↔
      (k ∈ s.txWritten ∧ ¬ StartsTransaction i s) ∨
      ((i = .sor ∨ i.commandParts.isSome = true) ∧ t.state = .wtrr ∧ k < t.txLen) ∨
      (i = .amr ∧ s.state = .idle ∧ k = 0)

/-- A handler is called with bytes of the current transaction alone: a StopOrRestart that calls one calls it with the
bytes that the transaction has written to rx, in index order, and with EN (10_state.md R32; 43_dispatcher.md R170,
R171). -/
def Obligations.DispatchedBytesAreOfThisTransaction : Prop :=
  ∀ (s t : State) (code : Byte) (args : List Byte) (en : Bool), exec .sor s = .next t →
    t.trace = .handlerCall code args en :: s.trace → CompletesMessage s code args ∧ en = s.en

/-- A byte on the wire is one of the current transaction: under the invariants, an event that emits a byte emits the byte
of tx that TXCOUNT counts last, which is one that TXLEN counts and that the transaction has written (10_state.md R32;
41_transmit.md R130, R133). -/
def Obligations.SentBytesAreOfThisTransaction : Prop :=
  ∀ (i : Instr) (s t : State), s.Inv → isBusEvent i = true → exec i s = .next t → t.txValid = true →
    1 ≤ t.txCount ∧ t.txCount ≤ t.txLen ∧ t.txCount - 1 ∈ t.txWritten ∧ t.tx.get (t.txCount - 1) = some t.txData
end

