-- ==== Sys2Proof/Laws/State.lean ====
section
/-! SUPPORT. What each named update does to each field of the state, for simp. -/

namespace Sys2Proof.Machine

/-! ### `State.goto` -/

@[simp] theorem State.goto_state (s : State) (st : TransactionState) : (s.goto st).state = st := rfl
@[simp] theorem State.goto_rxCount (s : State) (st : TransactionState) : (s.goto st).rxCount = s.rxCount := rfl
@[simp] theorem State.goto_txLen (s : State) (st : TransactionState) : (s.goto st).txLen = s.txLen := rfl
@[simp] theorem State.goto_txCount (s : State) (st : TransactionState) : (s.goto st).txCount = s.txCount := rfl
@[simp] theorem State.goto_err (s : State) (st : TransactionState) : (s.goto st).err = s.err := rfl
@[simp] theorem State.goto_en (s : State) (st : TransactionState) : (s.goto st).en = s.en := rfl
@[simp] theorem State.goto_rx (s : State) (st : TransactionState) : (s.goto st).rx = s.rx := rfl
@[simp] theorem State.goto_tx (s : State) (st : TransactionState) : (s.goto st).tx = s.tx := rfl
@[simp] theorem State.goto_ack (s : State) (st : TransactionState) : (s.goto st).ack = s.ack := rfl
@[simp] theorem State.goto_txData (s : State) (st : TransactionState) : (s.goto st).txData = s.txData := rfl
@[simp] theorem State.goto_txValid (s : State) (st : TransactionState) : (s.goto st).txValid = s.txValid := rfl
@[simp] theorem State.goto_stop (s : State) (st : TransactionState) : (s.goto st).stop = s.stop := rfl
@[simp] theorem State.goto_rxWritten (s : State) (st : TransactionState) : (s.goto st).rxWritten = s.rxWritten := rfl
@[simp] theorem State.goto_txWritten (s : State) (st : TransactionState) : (s.goto st).txWritten = s.txWritten := rfl
@[simp] theorem State.goto_fgResult (s : State) (st : TransactionState) : (s.goto st).fgResult = s.fgResult := rfl
@[simp] theorem State.goto_config (s : State) (st : TransactionState) : (s.goto st).config = s.config := rfl
@[simp] theorem State.goto_inputs (s : State) (st : TransactionState) : (s.goto st).inputs = s.inputs := rfl
@[simp] theorem State.goto_draws (s : State) (st : TransactionState) : (s.goto st).draws = s.draws := rfl
@[simp] theorem State.goto_drawCount (s : State) (st : TransactionState) : (s.goto st).drawCount = s.drawCount := rfl
@[simp] theorem State.goto_trace (s : State) (st : TransactionState) : (s.goto st).trace = s.trace := rfl

/-! ### `State.setAck` -/

@[simp] theorem State.setAck_state (s : State) (b : Bool) : (s.setAck b).state = s.state := rfl
@[simp] theorem State.setAck_rxCount (s : State) (b : Bool) : (s.setAck b).rxCount = s.rxCount := rfl
@[simp] theorem State.setAck_txLen (s : State) (b : Bool) : (s.setAck b).txLen = s.txLen := rfl
@[simp] theorem State.setAck_txCount (s : State) (b : Bool) : (s.setAck b).txCount = s.txCount := rfl
@[simp] theorem State.setAck_err (s : State) (b : Bool) : (s.setAck b).err = s.err := rfl
@[simp] theorem State.setAck_en (s : State) (b : Bool) : (s.setAck b).en = s.en := rfl
@[simp] theorem State.setAck_rx (s : State) (b : Bool) : (s.setAck b).rx = s.rx := rfl
@[simp] theorem State.setAck_tx (s : State) (b : Bool) : (s.setAck b).tx = s.tx := rfl
@[simp] theorem State.setAck_ack (s : State) (b : Bool) : (s.setAck b).ack = b := rfl
@[simp] theorem State.setAck_txData (s : State) (b : Bool) : (s.setAck b).txData = s.txData := rfl
@[simp] theorem State.setAck_txValid (s : State) (b : Bool) : (s.setAck b).txValid = s.txValid := rfl
@[simp] theorem State.setAck_stop (s : State) (b : Bool) : (s.setAck b).stop = s.stop := rfl
@[simp] theorem State.setAck_rxWritten (s : State) (b : Bool) : (s.setAck b).rxWritten = s.rxWritten := rfl
@[simp] theorem State.setAck_txWritten (s : State) (b : Bool) : (s.setAck b).txWritten = s.txWritten := rfl
@[simp] theorem State.setAck_fgResult (s : State) (b : Bool) : (s.setAck b).fgResult = s.fgResult := rfl
@[simp] theorem State.setAck_config (s : State) (b : Bool) : (s.setAck b).config = s.config := rfl
@[simp] theorem State.setAck_inputs (s : State) (b : Bool) : (s.setAck b).inputs = s.inputs := rfl
@[simp] theorem State.setAck_draws (s : State) (b : Bool) : (s.setAck b).draws = s.draws := rfl
@[simp] theorem State.setAck_drawCount (s : State) (b : Bool) : (s.setAck b).drawCount = s.drawCount := rfl
@[simp] theorem State.setAck_trace (s : State) (b : Bool) : (s.setAck b).trace = s.trace := rfl

/-! ### `State.emitTx` -/

@[simp] theorem State.emitTx_state (s : State) (v : Byte) : (s.emitTx v).state = s.state := rfl
@[simp] theorem State.emitTx_rxCount (s : State) (v : Byte) : (s.emitTx v).rxCount = s.rxCount := rfl
@[simp] theorem State.emitTx_txLen (s : State) (v : Byte) : (s.emitTx v).txLen = s.txLen := rfl
@[simp] theorem State.emitTx_txCount (s : State) (v : Byte) : (s.emitTx v).txCount = s.txCount := rfl
@[simp] theorem State.emitTx_err (s : State) (v : Byte) : (s.emitTx v).err = s.err := rfl
@[simp] theorem State.emitTx_en (s : State) (v : Byte) : (s.emitTx v).en = s.en := rfl
@[simp] theorem State.emitTx_rx (s : State) (v : Byte) : (s.emitTx v).rx = s.rx := rfl
@[simp] theorem State.emitTx_tx (s : State) (v : Byte) : (s.emitTx v).tx = s.tx := rfl
@[simp] theorem State.emitTx_ack (s : State) (v : Byte) : (s.emitTx v).ack = s.ack := rfl
@[simp] theorem State.emitTx_txData (s : State) (v : Byte) : (s.emitTx v).txData = v := rfl
@[simp] theorem State.emitTx_txValid (s : State) (v : Byte) : (s.emitTx v).txValid = true := rfl
@[simp] theorem State.emitTx_stop (s : State) (v : Byte) : (s.emitTx v).stop = s.stop := rfl
@[simp] theorem State.emitTx_rxWritten (s : State) (v : Byte) : (s.emitTx v).rxWritten = s.rxWritten := rfl
@[simp] theorem State.emitTx_txWritten (s : State) (v : Byte) : (s.emitTx v).txWritten = s.txWritten := rfl
@[simp] theorem State.emitTx_fgResult (s : State) (v : Byte) : (s.emitTx v).fgResult = s.fgResult := rfl
@[simp] theorem State.emitTx_config (s : State) (v : Byte) : (s.emitTx v).config = s.config := rfl
@[simp] theorem State.emitTx_inputs (s : State) (v : Byte) : (s.emitTx v).inputs = s.inputs := rfl
@[simp] theorem State.emitTx_draws (s : State) (v : Byte) : (s.emitTx v).draws = s.draws := rfl
@[simp] theorem State.emitTx_drawCount (s : State) (v : Byte) : (s.emitTx v).drawCount = s.drawCount := rfl
@[simp] theorem State.emitTx_trace (s : State) (v : Byte) : (s.emitTx v).trace = s.trace := rfl

/-! ### `State.emitStop` -/

@[simp] theorem State.emitStop_state (s : State) : s.emitStop.state = s.state := rfl
@[simp] theorem State.emitStop_rxCount (s : State) : s.emitStop.rxCount = s.rxCount := rfl
@[simp] theorem State.emitStop_txLen (s : State) : s.emitStop.txLen = s.txLen := rfl
@[simp] theorem State.emitStop_txCount (s : State) : s.emitStop.txCount = s.txCount := rfl
@[simp] theorem State.emitStop_err (s : State) : s.emitStop.err = s.err := rfl
@[simp] theorem State.emitStop_en (s : State) : s.emitStop.en = s.en := rfl
@[simp] theorem State.emitStop_rx (s : State) : s.emitStop.rx = s.rx := rfl
@[simp] theorem State.emitStop_tx (s : State) : s.emitStop.tx = s.tx := rfl
@[simp] theorem State.emitStop_ack (s : State) : s.emitStop.ack = s.ack := rfl
@[simp] theorem State.emitStop_txData (s : State) : s.emitStop.txData = s.txData := rfl
@[simp] theorem State.emitStop_txValid (s : State) : s.emitStop.txValid = s.txValid := rfl
@[simp] theorem State.emitStop_stop (s : State) : s.emitStop.stop = true := rfl
@[simp] theorem State.emitStop_rxWritten (s : State) : s.emitStop.rxWritten = s.rxWritten := rfl
@[simp] theorem State.emitStop_txWritten (s : State) : s.emitStop.txWritten = s.txWritten := rfl
@[simp] theorem State.emitStop_fgResult (s : State) : s.emitStop.fgResult = s.fgResult := rfl
@[simp] theorem State.emitStop_config (s : State) : s.emitStop.config = s.config := rfl
@[simp] theorem State.emitStop_inputs (s : State) : s.emitStop.inputs = s.inputs := rfl
@[simp] theorem State.emitStop_draws (s : State) : s.emitStop.draws = s.draws := rfl
@[simp] theorem State.emitStop_drawCount (s : State) : s.emitStop.drawCount = s.drawCount := rfl
@[simp] theorem State.emitStop_trace (s : State) : s.emitStop.trace = s.trace := rfl

/-! ### `State.clearOutputs` -/

@[simp] theorem State.clearOutputs_state (s : State) : s.clearOutputs.state = s.state := rfl
@[simp] theorem State.clearOutputs_rxCount (s : State) : s.clearOutputs.rxCount = s.rxCount := rfl
@[simp] theorem State.clearOutputs_txLen (s : State) : s.clearOutputs.txLen = s.txLen := rfl
@[simp] theorem State.clearOutputs_txCount (s : State) : s.clearOutputs.txCount = s.txCount := rfl
@[simp] theorem State.clearOutputs_err (s : State) : s.clearOutputs.err = s.err := rfl
@[simp] theorem State.clearOutputs_en (s : State) : s.clearOutputs.en = s.en := rfl
@[simp] theorem State.clearOutputs_rx (s : State) : s.clearOutputs.rx = s.rx := rfl
@[simp] theorem State.clearOutputs_tx (s : State) : s.clearOutputs.tx = s.tx := rfl
@[simp] theorem State.clearOutputs_ack (s : State) : s.clearOutputs.ack = s.ack := rfl
@[simp] theorem State.clearOutputs_txData (s : State) : s.clearOutputs.txData = s.txData := rfl
@[simp] theorem State.clearOutputs_txValid (s : State) : s.clearOutputs.txValid = false := rfl
@[simp] theorem State.clearOutputs_stop (s : State) : s.clearOutputs.stop = false := rfl
@[simp] theorem State.clearOutputs_rxWritten (s : State) : s.clearOutputs.rxWritten = s.rxWritten := rfl
@[simp] theorem State.clearOutputs_txWritten (s : State) : s.clearOutputs.txWritten = s.txWritten := rfl
@[simp] theorem State.clearOutputs_fgResult (s : State) : s.clearOutputs.fgResult = s.fgResult := rfl
@[simp] theorem State.clearOutputs_config (s : State) : s.clearOutputs.config = s.config := rfl
@[simp] theorem State.clearOutputs_inputs (s : State) : s.clearOutputs.inputs = s.inputs := rfl
@[simp] theorem State.clearOutputs_draws (s : State) : s.clearOutputs.draws = s.draws := rfl
@[simp] theorem State.clearOutputs_drawCount (s : State) : s.clearOutputs.drawCount = s.drawCount := rfl
@[simp] theorem State.clearOutputs_trace (s : State) : s.clearOutputs.trace = s.trace := rfl

/-! ### `State.record` -/

@[simp] theorem State.record_state (s : State) (e : TraceEvent) : (s.record e).state = s.state := rfl
@[simp] theorem State.record_rxCount (s : State) (e : TraceEvent) : (s.record e).rxCount = s.rxCount := rfl
@[simp] theorem State.record_txLen (s : State) (e : TraceEvent) : (s.record e).txLen = s.txLen := rfl
@[simp] theorem State.record_txCount (s : State) (e : TraceEvent) : (s.record e).txCount = s.txCount := rfl
@[simp] theorem State.record_err (s : State) (e : TraceEvent) : (s.record e).err = s.err := rfl
@[simp] theorem State.record_en (s : State) (e : TraceEvent) : (s.record e).en = s.en := rfl
@[simp] theorem State.record_rx (s : State) (e : TraceEvent) : (s.record e).rx = s.rx := rfl
@[simp] theorem State.record_tx (s : State) (e : TraceEvent) : (s.record e).tx = s.tx := rfl
@[simp] theorem State.record_ack (s : State) (e : TraceEvent) : (s.record e).ack = s.ack := rfl
@[simp] theorem State.record_txData (s : State) (e : TraceEvent) : (s.record e).txData = s.txData := rfl
@[simp] theorem State.record_txValid (s : State) (e : TraceEvent) : (s.record e).txValid = s.txValid := rfl
@[simp] theorem State.record_stop (s : State) (e : TraceEvent) : (s.record e).stop = s.stop := rfl
@[simp] theorem State.record_rxWritten (s : State) (e : TraceEvent) : (s.record e).rxWritten = s.rxWritten := rfl
@[simp] theorem State.record_txWritten (s : State) (e : TraceEvent) : (s.record e).txWritten = s.txWritten := rfl
@[simp] theorem State.record_fgResult (s : State) (e : TraceEvent) : (s.record e).fgResult = s.fgResult := rfl
@[simp] theorem State.record_config (s : State) (e : TraceEvent) : (s.record e).config = s.config := rfl
@[simp] theorem State.record_inputs (s : State) (e : TraceEvent) : (s.record e).inputs = s.inputs := rfl
@[simp] theorem State.record_draws (s : State) (e : TraceEvent) : (s.record e).draws = s.draws := rfl
@[simp] theorem State.record_drawCount (s : State) (e : TraceEvent) : (s.record e).drawCount = s.drawCount := rfl
@[simp] theorem State.record_trace (s : State) (e : TraceEvent) : (s.record e).trace = e :: s.trace := rfl

/-! ### `State.clearTransaction` -/

@[simp] theorem State.clearTransaction_state (s : State) : s.clearTransaction.state = s.state := rfl
@[simp] theorem State.clearTransaction_rxCount (s : State) : s.clearTransaction.rxCount = 0 := rfl
@[simp] theorem State.clearTransaction_txLen (s : State) : s.clearTransaction.txLen = 0 := rfl
@[simp] theorem State.clearTransaction_txCount (s : State) : s.clearTransaction.txCount = 0 := rfl
@[simp] theorem State.clearTransaction_err (s : State) : s.clearTransaction.err = false := rfl
@[simp] theorem State.clearTransaction_en (s : State) : s.clearTransaction.en = s.en := rfl
@[simp] theorem State.clearTransaction_rx (s : State) : s.clearTransaction.rx = s.rx := rfl
@[simp] theorem State.clearTransaction_tx (s : State) : s.clearTransaction.tx = s.tx := rfl
@[simp] theorem State.clearTransaction_ack (s : State) : s.clearTransaction.ack = s.ack := rfl
@[simp] theorem State.clearTransaction_txData (s : State) : s.clearTransaction.txData = s.txData := rfl
@[simp] theorem State.clearTransaction_txValid (s : State) : s.clearTransaction.txValid = s.txValid := rfl
@[simp] theorem State.clearTransaction_stop (s : State) : s.clearTransaction.stop = s.stop := rfl
@[simp] theorem State.clearTransaction_rxWritten (s : State) : s.clearTransaction.rxWritten = [] := rfl
@[simp] theorem State.clearTransaction_txWritten (s : State) : s.clearTransaction.txWritten = [] := rfl
@[simp] theorem State.clearTransaction_fgResult (s : State) : s.clearTransaction.fgResult = s.fgResult := rfl
@[simp] theorem State.clearTransaction_config (s : State) : s.clearTransaction.config = s.config := rfl
@[simp] theorem State.clearTransaction_inputs (s : State) : s.clearTransaction.inputs = s.inputs := rfl
@[simp] theorem State.clearTransaction_draws (s : State) : s.clearTransaction.draws = s.draws := rfl
@[simp] theorem State.clearTransaction_drawCount (s : State) : s.clearTransaction.drawCount = s.drawCount := rfl
@[simp] theorem State.clearTransaction_trace (s : State) : s.clearTransaction.trace = s.trace := rfl

/-! ### `State.flagError` -/

@[simp] theorem State.flagError_state (s : State) (c : Cause) : (s.flagError c).state = s.state := rfl
@[simp] theorem State.flagError_rxCount (s : State) (c : Cause) : (s.flagError c).rxCount = s.rxCount := rfl
@[simp] theorem State.flagError_txLen (s : State) (c : Cause) : (s.flagError c).txLen = s.txLen := rfl
@[simp] theorem State.flagError_txCount (s : State) (c : Cause) : (s.flagError c).txCount = s.txCount := rfl
@[simp] theorem State.flagError_err (s : State) (c : Cause) : (s.flagError c).err = true := rfl
@[simp] theorem State.flagError_en (s : State) (c : Cause) : (s.flagError c).en = s.en := rfl
@[simp] theorem State.flagError_rx (s : State) (c : Cause) : (s.flagError c).rx = s.rx := rfl
@[simp] theorem State.flagError_tx (s : State) (c : Cause) : (s.flagError c).tx = s.tx := rfl
@[simp] theorem State.flagError_ack (s : State) (c : Cause) : (s.flagError c).ack = s.ack := rfl
@[simp] theorem State.flagError_txData (s : State) (c : Cause) : (s.flagError c).txData = s.txData := rfl
@[simp] theorem State.flagError_txValid (s : State) (c : Cause) : (s.flagError c).txValid = s.txValid := rfl
@[simp] theorem State.flagError_stop (s : State) (c : Cause) : (s.flagError c).stop = s.stop := rfl
@[simp] theorem State.flagError_rxWritten (s : State) (c : Cause) : (s.flagError c).rxWritten = s.rxWritten := rfl
@[simp] theorem State.flagError_txWritten (s : State) (c : Cause) : (s.flagError c).txWritten = s.txWritten := rfl
@[simp] theorem State.flagError_fgResult (s : State) (c : Cause) : (s.flagError c).fgResult = s.fgResult := rfl
@[simp] theorem State.flagError_config (s : State) (c : Cause) : (s.flagError c).config = s.config := rfl
@[simp] theorem State.flagError_inputs (s : State) (c : Cause) : (s.flagError c).inputs = s.inputs := rfl
@[simp] theorem State.flagError_draws (s : State) (c : Cause) : (s.flagError c).draws = s.draws := rfl
@[simp] theorem State.flagError_drawCount (s : State) (c : Cause) : (s.flagError c).drawCount = s.drawCount := rfl
@[simp] theorem State.flagError_trace (s : State) (c : Cause) : (s.flagError c).trace = .cause c :: s.trace := rfl

/-! ### `State.abandon` -/

@[simp] theorem State.abandon_state (s : State) (c : Cause) : (s.abandon c).state = .idle := rfl
@[simp] theorem State.abandon_rxCount (s : State) (c : Cause) : (s.abandon c).rxCount = s.rxCount := rfl
@[simp] theorem State.abandon_txLen (s : State) (c : Cause) : (s.abandon c).txLen = s.txLen := rfl
@[simp] theorem State.abandon_txCount (s : State) (c : Cause) : (s.abandon c).txCount = s.txCount := rfl
@[simp] theorem State.abandon_err (s : State) (c : Cause) : (s.abandon c).err = true := rfl
@[simp] theorem State.abandon_en (s : State) (c : Cause) : (s.abandon c).en = s.en := rfl
@[simp] theorem State.abandon_rx (s : State) (c : Cause) : (s.abandon c).rx = s.rx := rfl
@[simp] theorem State.abandon_tx (s : State) (c : Cause) : (s.abandon c).tx = s.tx := rfl
@[simp] theorem State.abandon_ack (s : State) (c : Cause) : (s.abandon c).ack = s.ack := rfl
@[simp] theorem State.abandon_txData (s : State) (c : Cause) : (s.abandon c).txData = s.txData := rfl
@[simp] theorem State.abandon_txValid (s : State) (c : Cause) : (s.abandon c).txValid = s.txValid := rfl
@[simp] theorem State.abandon_stop (s : State) (c : Cause) : (s.abandon c).stop = s.stop := rfl
@[simp] theorem State.abandon_rxWritten (s : State) (c : Cause) : (s.abandon c).rxWritten = s.rxWritten := rfl
@[simp] theorem State.abandon_txWritten (s : State) (c : Cause) : (s.abandon c).txWritten = s.txWritten := rfl
@[simp] theorem State.abandon_fgResult (s : State) (c : Cause) : (s.abandon c).fgResult = s.fgResult := rfl
@[simp] theorem State.abandon_config (s : State) (c : Cause) : (s.abandon c).config = s.config := rfl
@[simp] theorem State.abandon_inputs (s : State) (c : Cause) : (s.abandon c).inputs = s.inputs := rfl
@[simp] theorem State.abandon_draws (s : State) (c : Cause) : (s.abandon c).draws = s.draws := rfl
@[simp] theorem State.abandon_drawCount (s : State) (c : Cause) : (s.abandon c).drawCount = s.drawCount := rfl
@[simp] theorem State.abandon_trace (s : State) (c : Cause) : (s.abandon c).trace = .cause c :: s.trace := rfl

/-! ### `State.takeDraw` -/

@[simp] theorem State.takeDraw_state (s : State) : s.takeDraw.state = s.state := rfl
@[simp] theorem State.takeDraw_rxCount (s : State) : s.takeDraw.rxCount = s.rxCount := rfl
@[simp] theorem State.takeDraw_txLen (s : State) : s.takeDraw.txLen = s.txLen := rfl
@[simp] theorem State.takeDraw_txCount (s : State) : s.takeDraw.txCount = s.txCount := rfl
@[simp] theorem State.takeDraw_err (s : State) : s.takeDraw.err = s.err := rfl
@[simp] theorem State.takeDraw_en (s : State) : s.takeDraw.en = s.en := rfl
@[simp] theorem State.takeDraw_rx (s : State) : s.takeDraw.rx = s.rx := rfl
@[simp] theorem State.takeDraw_tx (s : State) : s.takeDraw.tx = s.tx := rfl
@[simp] theorem State.takeDraw_ack (s : State) : s.takeDraw.ack = s.ack := rfl
@[simp] theorem State.takeDraw_txData (s : State) : s.takeDraw.txData = s.txData := rfl
@[simp] theorem State.takeDraw_txValid (s : State) : s.takeDraw.txValid = s.txValid := rfl
@[simp] theorem State.takeDraw_stop (s : State) : s.takeDraw.stop = s.stop := rfl
@[simp] theorem State.takeDraw_rxWritten (s : State) : s.takeDraw.rxWritten = s.rxWritten := rfl
@[simp] theorem State.takeDraw_txWritten (s : State) : s.takeDraw.txWritten = s.txWritten := rfl
@[simp] theorem State.takeDraw_fgResult (s : State) : s.takeDraw.fgResult = s.fgResult := rfl
@[simp] theorem State.takeDraw_config (s : State) : s.takeDraw.config = s.config := rfl
@[simp] theorem State.takeDraw_inputs (s : State) : s.takeDraw.inputs = s.inputs := rfl
@[simp] theorem State.takeDraw_draws (s : State) : s.takeDraw.draws = s.draws.tail := rfl
@[simp] theorem State.takeDraw_drawCount (s : State) : s.takeDraw.drawCount = s.drawCount + 1 := rfl
@[simp] theorem State.takeDraw_trace (s : State) : s.takeDraw.trace = s.trace := rfl

/-! ### `State.beginEvent` -/

@[simp] theorem State.beginEvent_state (s : State) :
    s.beginEvent.state = s.state := by
  by_cases h : s.state = .idle <;> simp [State.beginEvent, h]
@[simp] theorem State.beginEvent_rxCount (s : State) :
    s.beginEvent.rxCount = if s.state = .idle then 0 else s.rxCount := by
  by_cases h : s.state = .idle <;> simp [State.beginEvent, h]
@[simp] theorem State.beginEvent_txLen (s : State) :
    s.beginEvent.txLen = if s.state = .idle then 0 else s.txLen := by
  by_cases h : s.state = .idle <;> simp [State.beginEvent, h]
@[simp] theorem State.beginEvent_txCount (s : State) :
    s.beginEvent.txCount = if s.state = .idle then 0 else s.txCount := by
  by_cases h : s.state = .idle <;> simp [State.beginEvent, h]
@[simp] theorem State.beginEvent_err (s : State) :
    s.beginEvent.err = if s.state = .idle then false else s.err := by
  by_cases h : s.state = .idle <;> simp [State.beginEvent, h]
@[simp] theorem State.beginEvent_en (s : State) :
    s.beginEvent.en = s.en := by
  by_cases h : s.state = .idle <;> simp [State.beginEvent, h]
@[simp] theorem State.beginEvent_rx (s : State) :
    s.beginEvent.rx = s.rx := by
  by_cases h : s.state = .idle <;> simp [State.beginEvent, h]
@[simp] theorem State.beginEvent_tx (s : State) :
    s.beginEvent.tx = s.tx := by
  by_cases h : s.state = .idle <;> simp [State.beginEvent, h]
@[simp] theorem State.beginEvent_ack (s : State) :
    s.beginEvent.ack = true := by
  by_cases h : s.state = .idle <;> simp [State.beginEvent, h]
@[simp] theorem State.beginEvent_txData (s : State) :
    s.beginEvent.txData = s.txData := by
  by_cases h : s.state = .idle <;> simp [State.beginEvent, h]
@[simp] theorem State.beginEvent_txValid (s : State) :
    s.beginEvent.txValid = false := by
  by_cases h : s.state = .idle <;> simp [State.beginEvent, h]
@[simp] theorem State.beginEvent_stop (s : State) :
    s.beginEvent.stop = false := by
  by_cases h : s.state = .idle <;> simp [State.beginEvent, h]
@[simp] theorem State.beginEvent_rxWritten (s : State) :
    s.beginEvent.rxWritten = if s.state = .idle then [] else s.rxWritten := by
  by_cases h : s.state = .idle <;> simp [State.beginEvent, h]
@[simp] theorem State.beginEvent_txWritten (s : State) :
    s.beginEvent.txWritten = if s.state = .idle then [] else s.txWritten := by
  by_cases h : s.state = .idle <;> simp [State.beginEvent, h]
@[simp] theorem State.beginEvent_fgResult (s : State) :
    s.beginEvent.fgResult = s.fgResult := by
  by_cases h : s.state = .idle <;> simp [State.beginEvent, h]
@[simp] theorem State.beginEvent_config (s : State) :
    s.beginEvent.config = s.config := by
  by_cases h : s.state = .idle <;> simp [State.beginEvent, h]
@[simp] theorem State.beginEvent_inputs (s : State) :
    s.beginEvent.inputs = s.inputs := by
  by_cases h : s.state = .idle <;> simp [State.beginEvent, h]
@[simp] theorem State.beginEvent_draws (s : State) :
    s.beginEvent.draws = s.draws := by
  by_cases h : s.state = .idle <;> simp [State.beginEvent, h]
@[simp] theorem State.beginEvent_drawCount (s : State) :
    s.beginEvent.drawCount = s.drawCount := by
  by_cases h : s.state = .idle <;> simp [State.beginEvent, h]
@[simp] theorem State.beginEvent_trace (s : State) :
    s.beginEvent.trace = s.trace := by
  by_cases h : s.state = .idle <;> simp [State.beginEvent, h]

/-! ### `State.reset`, but for the values the spec does not give -/

@[simp] theorem State.reset_state : State.reset.state = .idle := rfl
@[simp] theorem State.reset_rxCount : State.reset.rxCount = 0 := rfl
@[simp] theorem State.reset_txLen : State.reset.txLen = 0 := rfl
@[simp] theorem State.reset_txCount : State.reset.txCount = 0 := rfl
@[simp] theorem State.reset_err : State.reset.err = false := rfl
@[simp] theorem State.reset_en : State.reset.en = false := rfl
@[simp] theorem State.reset_rx : State.reset.rx = [] := rfl
@[simp] theorem State.reset_tx : State.reset.tx = [] := rfl
@[simp] theorem State.reset_ack : State.reset.ack = true := rfl
@[simp] theorem State.reset_txValid : State.reset.txValid = false := rfl
@[simp] theorem State.reset_stop : State.reset.stop = false := rfl
@[simp] theorem State.reset_rxWritten : State.reset.rxWritten = [] := rfl
@[simp] theorem State.reset_txWritten : State.reset.txWritten = [] := rfl
@[simp] theorem State.reset_fgResult : State.reset.fgResult = none := rfl
@[simp] theorem State.reset_inputs : State.reset.inputs = [] := rfl
@[simp] theorem State.reset_draws : State.reset.draws = [] := rfl
@[simp] theorem State.reset_drawCount : State.reset.drawCount = 0 := rfl
@[simp] theorem State.reset_trace : State.reset.trace = [] := rfl

/-- An event in Idle starts from cleared counters and flag. -/
theorem State.beginEvent_of_idle (s : State) (h : s.state = .idle) :
    s.beginEvent =
      { s with
        ack := true, txValid := false, stop := false, rxCount := 0, txCount := 0, txLen := 0, err := false,
        rxWritten := [], txWritten := [] } := by
  simp [State.beginEvent, h, State.clearTransaction]

/-- An event outside Idle sets the outputs' defaults alone. -/
theorem State.beginEvent_of_ne_idle (s : State) (h : s.state ≠ .idle) :
    s.beginEvent = { s with ack := true, txValid := false, stop := false } := by
  simp [State.beginEvent, h, State.clearOutputs, State.setAck]

@[simp] theorem State.enOut_eq (s : State) : s.enOut = s.en := rfl

@[simp] theorem State.mem_rx (s : State) : s.mem .rx = s.rx := rfl
@[simp] theorem State.mem_tx (s : State) : s.mem .tx = s.tx := rfl
@[simp] theorem State.withMem_rx (s : State) (m : Memory) : s.withMem .rx m = { s with rx := m } := rfl
@[simp] theorem State.withMem_tx (s : State) (m : Memory) : s.withMem .tx m = { s with tx := m } := rfl
@[simp] theorem State.written_rx (s : State) : s.written .rx = s.rxWritten := rfl
@[simp] theorem State.written_tx (s : State) : s.written .tx = s.txWritten := rfl
@[simp] theorem State.withMem_written (s : State) (b b' : Buffer) (m : Memory) :
    (s.withMem b m).written b' = s.written b' := by
  cases b <;> cases b' <;> rfl

/-- A mark leaves the contents alone. -/
@[simp] theorem State.markWritten_mem (s : State) (b b' : Buffer) (i : Nat) :
    (s.markWritten b i).mem b' = s.mem b' := by
  cases b <;> cases b' <;> rfl
@[simp] theorem State.markWritten_rx (s : State) (i : Nat) :
    s.markWritten .rx i = { s with rxWritten := s.rxWritten.insert i } := rfl
@[simp] theorem State.markWritten_tx (s : State) (i : Nat) :
    s.markWritten .tx i = { s with txWritten := s.txWritten.insert i } := rfl

/-- What is marked after one mark. -/
theorem State.mem_written_markWritten {s : State} {b b' : Buffer} {i k : Nat} :
    k ∈ (s.markWritten b i).written b' ↔ (b' = b ∧ k = i) ∨ k ∈ s.written b' := by
  cases b <;> cases b' <;> simp

@[simp] theorem Buffer.cap_rx : Buffer.cap .rx = 34 := rfl
@[simp] theorem Buffer.cap_tx : Buffer.cap .tx = 33 := rfl

/-- The draw in use depends on the draws left, their count and the calls before, and on no register. -/
theorem State.currentDraw_congr {s t : State} (h : s.draws = t.draws) (h' : s.drawCount = t.drawCount)
    (h'' : s.pastCalls = t.pastCalls) : s.currentDraw = t.currentDraw := by
  simp [State.currentDraw, h, h', h'']

@[simp] theorem State.pastCalls_beginEvent (s : State) : s.beginEvent.pastCalls = s.pastCalls := by
  simp [State.pastCalls]

@[simp] theorem State.pastCalls_setAck (s : State) (b : Bool) : (s.setAck b).pastCalls = s.pastCalls := rfl
@[simp] theorem State.pastCalls_takeDraw (s : State) : s.takeDraw.pastCalls = s.pastCalls := rfl

/-- A cause is no call. -/
@[simp] theorem State.pastCalls_record_cause (s : State) (c : Cause) :
    (s.record (.cause c)).pastCalls = s.pastCalls := rfl

/-- A completed call is the newest of the calls. -/
@[simp] theorem State.pastCalls_record_call (s : State) (code : Byte) (args : List Byte) (en : Bool) :
    (s.record (.handlerCall code args en)).pastCalls = ⟨code, args, en⟩ :: s.pastCalls := rfl

@[simp] theorem replyFrom_nil (c : HandlerCall) (r : Reply) : replyFrom c r [] = r := rfl

@[simp] theorem replyFrom_cons (c c' : HandlerCall) (r r' : Reply) (rest : List (HandlerCall × Reply)) :
    replyFrom c r ((c', r') :: rest) = if c' = c then r' else replyFrom c r rest := rfl

@[simp] theorem State.currentDraw_beginEvent (s : State) : s.beginEvent.currentDraw = s.currentDraw :=
  State.currentDraw_congr (by simp) (by simp) (by simp)

@[simp] theorem State.currentDraw_setAck (s : State) (b : Bool) : (s.setAck b).currentDraw = s.currentDraw := rfl

/-- What a handler answers depends on the draw in use, its call and EN. -/
theorem State.handlerReply_eq (s : State) (code : Byte) (args : List Byte) :
    s.handlerReply code args = replyTo s.currentDraw ⟨code, args, s.en⟩ := rfl

@[simp] theorem State.handlerReply_beginEvent (s : State) (code : Byte) (args : List Byte) :
    s.beginEvent.handlerReply code args = s.handlerReply code args := by
  simp [State.handlerReply_eq]

@[simp] theorem State.handlerReply_setAck (s : State) (b : Bool) (code : Byte) (args : List Byte) :
    (s.setAck b).handlerReply code args = s.handlerReply code args := rfl

@[simp] theorem State.txExhausted_eq (s : State) : s.txExhausted = decide (s.txCount = s.txLen) := rfl

/-- Two states with equal fields are equal. -/
theorem State.eq_of_fields {s t : State} (h1 : s.state = t.state) (h2 : s.rxCount = t.rxCount)
    (h3 : s.txLen = t.txLen) (h4 : s.txCount = t.txCount) (h5 : s.err = t.err) (h6 : s.en = t.en) (h7 : s.rx = t.rx)
    (h8 : s.tx = t.tx) (h9 : s.ack = t.ack) (h10 : s.txData = t.txData) (h11 : s.txValid = t.txValid)
    (h12 : s.stop = t.stop) (h13 : s.fgResult = t.fgResult) (h14 : s.config = t.config) (h15 : s.inputs = t.inputs)
    (h16 : s.draws = t.draws) (h17 : s.drawCount = t.drawCount) (h18 : s.trace = t.trace)
    (h19 : s.rxWritten = t.rxWritten) (h20 : s.txWritten = t.txWritten) : s = t := by
  cases s; cases t; simp_all

end Sys2Proof.Machine
end

