-- ==== Sys2Proof/Laws/Memory.lean ====
section
/-! SUPPORT. The laws of the buffers: read after write, the canonical form, and what ranges read and write. -/

namespace Sys2Proof.Machine

theorem Memory.get_put_self (m : Memory) (i : Nat) (v : Byte) : (m.put i v).get i = some v := by
  induction m with
  | nil => simp [Memory.put, Memory.get]
  | cons c rest ih =>
    obtain ⟨j, w⟩ := c
    simp only [Memory.put]
    split
    · simp [Memory.get]
    · split
      · simp [Memory.get]
      · rename_i h1 h2
        simp [Memory.get, show j ≠ i by omega, ih]

theorem Memory.get_put_ne (m : Memory) {i k : Nat} (v : Byte) (h : k ≠ i) : (m.put i v).get k = m.get k := by
  induction m with
  | nil => simp [Memory.put, Memory.get, Ne.symm h]
  | cons c rest ih =>
    obtain ⟨j, w⟩ := c
    simp only [Memory.put]
    split
    · simp [Memory.get, Ne.symm h]
    · split
      · rename_i h1 h2
        subst h2
        simp [Memory.get, Ne.symm h]
      · simp [Memory.get, ih]

/-- Reading after one write. -/
theorem Memory.get_put (m : Memory) (i k : Nat) (v : Byte) :
    (m.put i v).get k = if k = i then some v else m.get k := by
  split
  · subst k; exact Memory.get_put_self m i v
  · exact Memory.get_put_ne m v ‹_›

theorem Memory.wfFrom_put (m : Memory) {lo cap i : Nat} (v : Byte) (hm : Memory.wfFrom lo cap m = true)
    (hlo : lo ≤ i) (hi : i < cap) : Memory.wfFrom lo cap (m.put i v) = true := by
  induction m generalizing lo with
  | nil => simp [Memory.put, Memory.wfFrom, hlo, hi]
  | cons c rest ih =>
    obtain ⟨j, w⟩ := c
    simp only [Memory.wfFrom, Bool.and_eq_true, decide_eq_true_eq] at hm
    obtain ⟨⟨hj1, hj2⟩, hrest⟩ := hm
    simp only [Memory.put]
    split
    · rename_i h
      simp [Memory.wfFrom, hlo, hi, hj2, hrest, show i + 1 ≤ j from h]
    · split
      · rename_i h1 h2
        subst h2
        simp [Memory.wfFrom, hlo, hi, hrest]
      · simp [Memory.wfFrom, hj1, hj2, ih hrest (by omega)]

/-- A write within the capacity keeps the canonical form. -/
theorem Memory.wf_put (m : Memory) {cap i : Nat} (v : Byte) (hm : Memory.wf cap m = true) (hi : i < cap) :
    Memory.wf cap (m.put i v) = true :=
  Memory.wfFrom_put m v hm (Nat.zero_le i) hi

@[simp] theorem Memory.wf_nil (cap : Nat) : Memory.wf cap [] = true := rfl

@[simp] theorem Memory.get_nil (i : Nat) : Memory.get [] i = none := rfl

/-- Two memories in canonical form that read alike are equal. -/
theorem Memory.eq_of_get_eq {lo cap : Nat} {m m' : Memory} (h : Memory.wfFrom lo cap m = true)
    (h' : Memory.wfFrom lo cap m' = true) (heq : ∀ i, m.get i = m'.get i) : m = m' := by
  have below : ∀ (m : Memory) (lo i : Nat), Memory.wfFrom lo cap m = true → i < lo → m.get i = none := by
    intro m
    induction m with
    | nil => intros; rfl
    | cons c rest ih =>
      intro lo i hw hi
      obtain ⟨j, w⟩ := c
      simp only [Memory.wfFrom, Bool.and_eq_true, decide_eq_true_eq] at hw
      simp [Memory.get, show j ≠ i by omega, ih (j + 1) i hw.2 (by omega)]
  induction m generalizing m' lo with
  | nil =>
    cases m' with
    | nil => rfl
    | cons c rest => have := heq c.1; simp [Memory.get] at this
  | cons c rest ih =>
    cases m' with
    | nil => have := heq c.1; simp [Memory.get] at this
    | cons c' rest' =>
      obtain ⟨j, w⟩ := c
      obtain ⟨j', w'⟩ := c'
      simp only [Memory.wfFrom, Bool.and_eq_true, decide_eq_true_eq] at h h'
      have hjj : j = j' := by
        rcases Nat.lt_trichotomy j j' with hlt | he | hgt
        · have := heq j
          simp [Memory.get, show j' ≠ j by omega, below rest' (j' + 1) j h'.2 (by omega)] at this
        · exact he
        · have := heq j'
          simp [Memory.get, show j ≠ j' by omega, below rest (j + 1) j' h.2 (by omega)] at this
      subst hjj
      have hw : w = w' := by simpa [Memory.get] using heq j
      subst hw
      have : rest = rest' := by
        refine ih h.2 h'.2 fun i => ?_
        by_cases hi : j = i
        · subst hi
          rw [below rest (j + 1) j h.2 (by omega), below rest' (j + 1) j h'.2 (by omega)]
        · simpa [Memory.get, hi] using heq i
      rw [this]

/-! ### The access primitives -/

/-- MemRead answers the byte of an index within the capacity that the current transaction wrote, and nothing else. -/
theorem memRead_eq_ok {b : Buffer} {i : Nat} {s : State} {v : Byte} :
    memRead b i s = .ok v ↔ i < b.cap ∧ i ∈ s.written b ∧ (s.mem b).get i = some v := by
  unfold memRead
  split <;> rename_i h
  · split <;> rename_i h'
    · cases hg : (s.mem b).get i <;> simp [h, h']
    · simp [h, h']
  · simp [h]

/-- A byte that the current transaction has not written, or that holds no value, is not read. -/
theorem memRead_unwritten {b : Buffer} {i : Nat} {s : State} (h : i < b.cap)
    (h' : i ∉ s.written b ∨ (s.mem b).get i = none) : memRead b i s = .error (.unwrittenByte b i) := by
  by_cases hw : i ∈ s.written b
  · simp [memRead, h, hw, h'.resolve_left (not_not_intro hw)]
  · simp [memRead, h, hw]

theorem State.holdsByte_iff {s : State} {b : Buffer} {i : Nat} :
    s.holdsByte b i = true ↔ i ∈ s.written b ∧ ((s.mem b).get i).isSome = true := by
  simp [State.holdsByte]

/-- A byte of the current transaction within the capacity can be read. -/
theorem memRead_ok_of_holds {b : Buffer} {i : Nat} {s : State} (h : i < b.cap) (hw : s.holdsByte b i = true) :
    ∃ v, memRead b i s = .ok v := by
  obtain ⟨hm, hs⟩ := State.holdsByte_iff.mp hw
  obtain ⟨v, hv⟩ := Option.isSome_iff_exists.mp hs
  exact ⟨v, memRead_eq_ok.mpr ⟨h, hm, hv⟩⟩

/-- MemWrite within the capacity. -/
theorem memWrite_of_lt {b : Buffer} {i : Nat} (v : Byte) (s : State) (h : i < b.cap) :
    memWrite b i v s = .ok ((s.withMem b ((s.mem b).put i v)).markWritten b i) := by
  simp [memWrite, h]

/-- MemWrite answers only within the capacity. -/
theorem memWrite_eq_ok {b : Buffer} {i : Nat} {v : Byte} {s t : State} :
    memWrite b i v s = .ok t ↔ i < b.cap ∧ t = (s.withMem b ((s.mem b).put i v)).markWritten b i := by
  unfold memWrite
  split <;> rename_i h <;> simp [h, eq_comm]

/-- After MemWrite the current transaction holds the byte written and the bytes it held before. -/
theorem memWrite_holdsByte {b b' : Buffer} {i k : Nat} {v : Byte} {s t : State} (h : memWrite b i v s = .ok t) :
    t.holdsByte b' k = true ↔ (b' = b ∧ k = i) ∨ s.holdsByte b' k = true := by
  obtain ⟨-, rfl⟩ := memWrite_eq_ok.mp h
  simp only [State.holdsByte_iff, State.mem_written_markWritten, State.markWritten_mem, State.withMem_written]
  by_cases hk : k = i
  · subst hk
    cases b <;> cases b' <;> simp [Memory.get_put_self]
  · cases b <;> cases b' <;> simp [hk, Memory.get_put_ne _ v hk]

/-- What the current transaction holds of rx depends on rx and on its marks alone. -/
theorem State.holdsByte_rx_congr {s t : State} (h : t.rx = s.rx) (h' : t.rxWritten = s.rxWritten) (i : Nat) :
    t.holdsByte .rx i = s.holdsByte .rx i := by
  simp only [State.holdsByte, State.written_rx, State.mem_rx, h, h']

/-- What the current transaction holds of tx depends on tx and on its marks alone. -/
theorem State.holdsByte_tx_congr {s t : State} (h : t.tx = s.tx) (h' : t.txWritten = s.txWritten) (i : Nat) :
    t.holdsByte .tx i = s.holdsByte .tx i := by
  simp only [State.holdsByte, State.written_tx, State.mem_tx, h, h']

/-- MemWrite keeps the canonical form of both buffers. -/
theorem memWrite_keeps_wf {b : Buffer} {i : Nat} {v : Byte} {s t : State} (h : memWrite b i v s = .ok t)
    (hr : Memory.wf Config.rxCap s.rx = true) (ht : Memory.wf Config.txCap s.tx = true) :
    Memory.wf Config.rxCap t.rx = true ∧ Memory.wf Config.txCap t.tx = true := by
  obtain ⟨hi, rfl⟩ := memWrite_eq_ok.mp h
  cases b with
  | rx => exact ⟨Memory.wf_put s.rx v hr hi, ht⟩
  | tx => exact ⟨hr, Memory.wf_put s.tx v ht hi⟩

/-- A list of writes keeps the canonical form of both buffers. -/
theorem memWriteList_keeps_wf {b : Buffer} {i : Nat} {vs : List Byte} {s t : State}
    (h : memWriteList b i vs s = .ok t) (hr : Memory.wf Config.rxCap s.rx = true)
    (ht : Memory.wf Config.txCap s.tx = true) :
    Memory.wf Config.rxCap t.rx = true ∧ Memory.wf Config.txCap t.tx = true := by
  induction vs generalizing i s with
  | nil => cases h; exact ⟨hr, ht⟩
  | cons v rest ih =>
    simp only [memWriteList] at h
    cases hw : memWrite b i v s with
    | error f => simp [hw] at h
    | ok u =>
      simp only [hw] at h
      obtain ⟨h1, h2⟩ := memWrite_keeps_wf hw hr ht
      exact ih h h1 h2

/-- The buffers after reset are in canonical form. -/
theorem reset_buffers_wf :
    Memory.wf Config.rxCap State.reset.rx = true ∧ Memory.wf Config.txCap State.reset.tx = true :=
  ⟨rfl, rfl⟩

/-- The memory a list of consecutive writes leaves. -/
def Memory.putList (m : Memory) (i : Nat) : List Byte → Memory
  | [] => m
  | v :: rest => Memory.putList (m.put i v) (i + 1) rest

theorem Memory.get_putList (m : Memory) (i k : Nat) (vs : List Byte) :
    (m.putList i vs).get k = if i ≤ k ∧ k < i + vs.length then vs[k - i]? else m.get k := by
  induction vs generalizing m i with
  | nil => simp only [Memory.putList, List.length_nil]; rw [if_neg (by omega)]
  | cons v rest ih =>
    simp only [Memory.putList, ih, List.length_cons, Memory.get_put]
    by_cases h1 : i + 1 ≤ k ∧ k < i + 1 + rest.length
    · rw [if_pos h1, if_pos (by omega), show k - i = (k - (i + 1)) + 1 by omega, List.getElem?_cons_succ]
    · rw [if_neg h1]
      by_cases h2 : k = i
      · subst h2; simp
      · rw [if_neg h2, if_neg (by omega)]

theorem Memory.wf_putList (m : Memory) {cap i : Nat} (vs : List Byte) (hm : Memory.wf cap m = true)
    (hi : i + vs.length ≤ cap) : Memory.wf cap (m.putList i vs) = true := by
  induction vs generalizing m i with
  | nil => exact hm
  | cons v rest ih =>
    simp only [List.length_cons] at hi
    exact ih (m.put i v) (Memory.wf_put m v hm (by omega)) (by omega)

theorem Memory.get_cellsFrom (i k : Nat) (vs : List Byte) :
    Memory.get (cellsFrom i vs) k = if i ≤ k then vs[k - i]? else none := by
  induction vs generalizing i with
  | nil => simp [cellsFrom]
  | cons v rest ih =>
    simp only [cellsFrom, Memory.get, ih]
    by_cases h : i = k
    · subst h; simp
    · by_cases h1 : i ≤ k
      · rw [if_neg h, if_pos (by omega), if_pos h1, show k - i = (k - (i + 1)) + 1 by omega,
          List.getElem?_cons_succ]
      · rw [if_neg h, if_neg (by omega), if_neg h1]

theorem Memory.wfFrom_cellsFrom {i cap : Nat} (vs : List Byte) (h : i + vs.length ≤ cap) :
    Memory.wfFrom i cap (cellsFrom i vs) = true := by
  induction vs generalizing i with
  | nil => rfl
  | cons v rest ih =>
    simp only [List.length_cons] at h
    simp [cellsFrom, Memory.wfFrom, show i < cap by omega, ih (i := i + 1) (by omega)]

/-- The marks after `n` consecutive writes from `i` on. -/
def markRange (i : Nat) : Nat → List Nat → List Nat
  | 0, marks => marks
  | n + 1, marks => markRange (i + 1) n (marks.insert i)

@[simp] theorem mem_markRange {i n k : Nat} {marks : List Nat} :
    k ∈ markRange i n marks ↔ (i ≤ k ∧ k < i + n) ∨ k ∈ marks := by
  induction n generalizing i marks with
  | zero => simp [markRange, show ¬ (i ≤ k ∧ k < i) by omega]
  | succ n ih =>
    simp only [markRange, ih, List.mem_insert_iff]
    constructor
    · rintro (h | rfl | h)
      · exact .inl (by omega)
      · exact .inl (by omega)
      · exact .inr h
    · rintro (h | h)
      · by_cases hk : k = i
        · exact .inr (.inl hk)
        · exact .inl (by omega)
      · exact .inr (.inr h)

/-- A list that fits is written whole. -/
theorem memWriteList_tx (i : Nat) (vs : List Byte) (s : State) (h : i + vs.length ≤ 33) :
    memWriteList .tx i vs s =
      .ok { s with tx := s.tx.putList i vs, txWritten := markRange i vs.length s.txWritten } := by
  induction vs generalizing i s with
  | nil => rfl
  | cons v rest ih =>
    simp only [List.length_cons] at h
    simp only [memWriteList, memWrite_of_lt (b := .tx) v s (show i < Buffer.cap .tx by simp; omega)]
    rw [ih (i + 1) _ (by omega)]
    rfl

/-- A range read answers exactly when every index is within the capacity and written in the current transaction. -/
theorem memReadRange_eq_ok {b : Buffer} {i n : Nat} {s : State} {vs : List Byte} :
    memReadRange b i n s = .ok vs ↔
      vs.length = n ∧ ∀ k, k < n → i + k < b.cap ∧ i + k ∈ s.written b ∧ (s.mem b).get (i + k) = vs[k]? := by
  induction n generalizing i vs with
  | zero =>
    simp only [memReadRange, Except.ok.injEq, Nat.not_lt_zero, false_implies, implies_true, and_true]
    constructor
    · rintro rfl; rfl
    · intro h; exact (List.length_eq_zero_iff.mp h).symm
  | succ n ih =>
    constructor
    · intro h
      simp only [memReadRange] at h
      cases hr : memRead b i s with
      | error f => simp [hr] at h
      | ok v =>
        cases hrr : memReadRange b (i + 1) n s with
        | error f => simp [hr, hrr] at h
        | ok ws =>
          simp only [hr, hrr, Except.ok.injEq] at h
          subst h
          obtain ⟨hl, hk⟩ := ih.mp hrr
          obtain ⟨hc, hw, hg⟩ := memRead_eq_ok.mp hr
          refine ⟨by simp [hl], fun k hkn => ?_⟩
          cases k with
          | zero => exact ⟨hc, hw, by simpa using hg⟩
          | succ k =>
            have := hk k (by omega)
            rw [show i + (k + 1) = i + 1 + k by omega]
            exact ⟨this.1, this.2.1, by simpa using this.2.2⟩
    · rintro ⟨hl, hk⟩
      cases vs with
      | nil => simp at hl
      | cons v rest =>
        have h0 := hk 0 (by omega)
        have hr : memRead b i s = .ok v := memRead_eq_ok.mpr ⟨h0.1, h0.2.1, by simpa using h0.2.2⟩
        have hrr : memReadRange b (i + 1) n s = .ok rest := by
          refine ih.mpr ⟨by simpa using hl, fun k hkn => ?_⟩
          have := hk (k + 1) (by omega)
          rw [show i + 1 + k = i + (k + 1) by omega]
          exact ⟨this.1, this.2.1, by simpa using this.2.2⟩
        simp [memReadRange, hr, hrr]

/-- A range of the current transaction's bytes within the capacity can be read. -/
theorem memReadRange_ok_of_holds {b : Buffer} {i n : Nat} {s : State}
    (h : ∀ k, k < n → i + k < b.cap ∧ s.holdsByte b (i + k) = true) :
    ∃ vs, memReadRange b i n s = .ok vs := by
  induction n generalizing i with
  | zero => exact ⟨[], rfl⟩
  | succ n ih =>
    obtain ⟨hc, hg⟩ := h 0 (by omega)
    obtain ⟨v, hr⟩ := memRead_ok_of_holds hc hg
    rw [Nat.add_zero] at hr
    obtain ⟨ws, hws⟩ := ih (i := i + 1) fun k hk => by
      rw [show i + 1 + k = i + (k + 1) by omega]; exact h (k + 1) (by omega)
    exact ⟨v :: ws, by simp [memReadRange, hr, hws]⟩

end Sys2Proof.Machine
end

