-- ==== Sys2Proof/Laws/Ops.lean ====
section
/-! SUPPORT. What each shared operation of the machine can do, said once: equations by case, and for the handler's call
one inversion. -/

namespace Sys2Proof.Machine

/-! ### Outcomes -/

@[simp] theorem orFault_ok {α : Type} (a : α) (k : α → Host.Outcome State Fault Refusal) :
    orFault (.ok a) k = k a := rfl

@[simp] theorem orFault_error {α : Type} (f : Fault) (k : α → Host.Outcome State Fault Refusal) :
    orFault (.error f) k = .fault f := rfl

/-- A step that goes on after an access went on from what the access answered. -/
theorem orFault_eq_next {α : Type} {e : Except Fault α} {k : α → Host.Outcome State Fault Refusal} {t : State} :
    orFault e k = .next t ↔ ∃ a, e = .ok a ∧ k a = .next t := by
  cases e <;> simp

/-! ### A handler's call -/

/-- The state after a response: tx and its marks, TXLEN, TXCOUNT, STATE and the trace (43_dispatcher.md R175). -/
def respondedState (code : Byte) (args b : List Byte) (s : State) : State :=
  { s with
    state := .wtrr, txLen := b.length, txCount := 0, tx := s.tx.putList 0 b,
    txWritten := markRange 0 b.length s.txWritten, trace := .handlerCall code args s.en :: s.trace }

/-- The state after Done (43_dispatcher.md R176). -/
def doneState (code : Byte) (args : List Byte) (s : State) : State :=
  { s with state := .idle, trace := .handlerCall code args s.en :: s.trace }

@[simp] theorem finishCall_reject (code : Byte) (args : List Byte) (s : State) :
    finishCall code args .reject s = .next (s.abandon .handlerReject) := rfl

@[simp] theorem finishCall_done (code : Byte) (args : List Byte) (s : State) :
    finishCall code args .done s = .next (doneState code args s) := rfl

@[simp] theorem finishCall_respond_nil (code : Byte) (args : List Byte) (s : State) :
    finishCall code args (.respond []) s = .next (doneState code args s) := rfl

theorem finishCall_respond_fits (code : Byte) (args : List Byte) {b : List Byte} (s : State) (h1 : 1 ≤ b.length)
    (h2 : b.length ≤ 33) : finishCall code args (.respond b) s = .next (respondedState code args b s) := by
  have hne : b.length ≠ 0 := by omega
  simp only [finishCall, hne, if_false, show b.length ≤ Config.txCap from h2, if_true,
    memWriteList_tx 0 b _ (show 0 + b.length ≤ 33 by omega), orFault_ok]
  rfl

theorem finishCall_respond_over (code : Byte) (args : List Byte) {b : List Byte} (s : State) (h : 33 < b.length) :
    finishCall code args (.respond b) s = .refused (.handlerContract code b.length) := by
  simp [finishCall, show b.length ≠ 0 by omega, show ¬ b.length ≤ Config.txCap from Nat.not_le.mpr h]

/-- The ways a handler's call goes on. -/
theorem finishCall_eq_next {code : Byte} {args : List Byte} {r : HandlerResult} {s t : State}
    (h : finishCall code args r s = .next t) :
    (r = .reject ∧ t = s.abandon .handlerReject) ∨
    ((r = .done ∨ r = .respond []) ∧ t = doneState code args s) ∨
    ∃ b, r = .respond b ∧ 1 ≤ b.length ∧ b.length ≤ 33 ∧ t = respondedState code args b s := by
  cases r with
  | reject => simp at h; exact .inl ⟨rfl, h.symm⟩
  | done => simp at h; exact .inr (.inl ⟨.inl rfl, h.symm⟩)
  | respond b =>
    by_cases h0 : b = []
    · subst h0; simp at h; exact .inr (.inl ⟨.inr rfl, h.symm⟩)
    · have h1 : 1 ≤ b.length := by
        cases b with
        | nil => exact absurd rfl h0
        | cons x xs => simp
      by_cases h2 : b.length ≤ 33
      · rw [finishCall_respond_fits code args s h1 h2] at h
        exact .inr (.inr ⟨b, rfl, h1, h2, by simpa using h.symm⟩)
      · rw [finishCall_respond_over code args s (by omega)] at h
        simp at h

theorem checkedCall_wrong {n : Nat} {args : List Byte} (code : Byte) (r : HandlerResult) (s : State)
    (h : args.length + 1 ≠ n) : checkedCall n code args r s = .next (s.abandon .argCount) := by
  simp [checkedCall, h]

theorem checkedCall_right {n : Nat} {args : List Byte} (code : Byte) (r : HandlerResult) {s : State}
    (h : args.length + 1 = n) (hr : (s.handlerReply code args).returns = true) :
    checkedCall n code args r s = finishCall code args r s.takeDraw := by
  simp [checkedCall, h, callHandler, hr]

theorem checkedCall_stuck {n : Nat} {args : List Byte} (code : Byte) (r : HandlerResult) {s : State}
    (h : args.length + 1 = n) (hr : (s.handlerReply code args).returns = false) :
    checkedCall n code args r s = .fault (.handlerStuck code) := by
  simp [checkedCall, h, callHandler, hr]

/-- All that a checked call can do. -/
theorem checkedCall_cases (n : Nat) (code : Byte) (args : List Byte) (r : HandlerResult) (s : State) :
    checkedCall n code args r s = .next (s.abandon .argCount) ∨
    checkedCall n code args r s = .next (s.takeDraw.abandon .handlerReject) ∨
    checkedCall n code args r s = .next (doneState code args s.takeDraw) ∨
    (∃ b, r = .respond b ∧ 1 ≤ b.length ∧ b.length ≤ 33 ∧
      checkedCall n code args r s = .next (respondedState code args b s.takeDraw)) ∨
    checkedCall n code args r s = .fault (.handlerStuck code) ∨
    ∃ k, checkedCall n code args r s = .refused (.handlerContract code k) := by
  by_cases hl : args.length + 1 = n
  · cases hr : (s.handlerReply code args).returns with
    | false => exact .inr (.inr (.inr (.inr (.inl (checkedCall_stuck code r hl hr)))))
    | true =>
      rw [checkedCall_right code r hl hr]
      cases r with
      | reject => exact .inr (.inl rfl)
      | done => exact .inr (.inr (.inl rfl))
      | respond b =>
        by_cases h0 : b.length = 0
        · rw [List.length_eq_zero_iff.mp h0]; exact .inr (.inr (.inl rfl))
        · by_cases h2 : b.length ≤ 33
          · exact .inr (.inr (.inr (.inl
              ⟨b, rfl, by omega, h2, finishCall_respond_fits code args _ (by omega) h2⟩)))
          · exact .inr (.inr (.inr (.inr (.inr
              ⟨b.length, finishCall_respond_over code args _ (by omega)⟩))))
  · exact .inl (checkedCall_wrong code r s hl)

/-! ### The upcalls -/

/-- The answer a default command's handler gives (44_commands.md R195). -/
def commandAnswer (c : Command) (code : Byte) (args : List Byte) (s : State) : HandlerResult :=
  match c with
  | .identify => identityAnswer s
  | .setMotorType => acceptAnswer code args s
  | .setTimerDivider => acceptAnswer code args s
  | .enableOutputs => .done
  | .disableOutputs => .done
  | .setSpeed => acceptAnswer code args s
  | .setDirection => acceptAnswer code args s
  | .setStepCount => acceptAnswer code args s
  | .stepForward => .done
  | .stepBackward => .done
  | .stepsForward => .done
  | .stepsBackward => .done
  | .stepSpeed => acceptAnswer code args s
  | .stepRemaining => remainingAnswer code args s
  | .stepRelease => .done

/-- The answer the handler of an entry gives. -/
def entryAnswer (e : Entry) (code : Byte) (args : List Byte) (s : State) : HandlerResult :=
  match e with
  | .default c => commandAnswer c code args s
  | .external _ => externalAnswer code args s

/-- Every command is one checked call. -/
theorem runCommand_eq (c : Command) (code : Byte) (args : List Byte) (s : State) :
    runCommand c code args s = checkedCall c.declaredLength code args (commandAnswer c code args s) s := by
  cases c <;> rfl

/-- A command instruction is the run of its command. -/
theorem exec_command {i : Instr} {c : Command} {code : Byte} {args : List Byte}
    (h : i.commandParts = some (c, code, args)) (s : State) : exec i s = runCommand c code args s := by
  cases i <;> simp [Instr.commandParts] at h <;> obtain ⟨rfl, rfl, rfl⟩ := h <;> rfl

@[simp] theorem commandParts_toInstr (c : Command) (code : Byte) (args : List Byte) :
    (c.toInstr code args).commandParts = some (c, code, args) := by
  cases c <;> rfl

/-- The dispatcher on a code that has an entry is one checked call. -/
theorem dispatchMessage_of_some {code : Byte} {e : Entry} (args : List Byte) {s : State}
    (h : s.config.lookup code = some e) :
    dispatchMessage code args s = checkedCall e.declaredLength code args (entryAnswer e code args s) s := by
  cases e with
  | default c => simp only [dispatchMessage, h, runCommand_eq]; rfl
  | external n => simp only [dispatchMessage, h, runExternal]; rfl

theorem dispatchMessage_of_none {code : Byte} (args : List Byte) {s : State} (h : s.config.lookup code = none) :
    dispatchMessage code args s = .next (s.abandon .unknownCmd) := by
  simp [dispatchMessage, h]

/-- The message of a completed write is what rx holds. -/
theorem writeComplete_of_message {s : State} {code : Byte} {args : List Byte} (hc : s.rxCount = args.length + 1)
    (hl : args.length + 1 ≤ 34)
    (h : ∀ i, i < args.length + 1 → i ∈ s.rxWritten ∧ s.rx.get i = (code :: args)[i]?) :
    writeComplete s = dispatchMessage code args s := by
  have h0 : messageCode s = .ok code :=
    memRead_eq_ok.mpr ⟨by simp, by simpa using h 0 (by omega)⟩
  have h1 : messageArgs s = .ok args := by
    refine memReadRange_eq_ok.mpr ⟨by omega, fun k hk => ?_⟩
    have := h (k + 1) (by omega)
    rw [Nat.add_comm 1 k]
    exact ⟨by simp; omega, by simpa using this⟩
  simp [writeComplete, h0, h1]

/-- A completed write whose bytes are all of the current transaction is dispatched. -/
theorem writeComplete_of_holds {s : State} (h1 : 1 ≤ s.rxCount) (h2 : s.rxCount ≤ 34)
    (h : ∀ i, i < s.rxCount → s.holdsByte .rx i = true) :
    ∃ code args, writeComplete s = dispatchMessage code args s := by
  obtain ⟨code, h0⟩ : ∃ code, messageCode s = .ok code := memRead_ok_of_holds (by simp) (h 0 (by omega))
  obtain ⟨args, ha⟩ := memReadRange_ok_of_holds (b := .rx) (i := 1) (n := s.rxCount - 1) (s := s) fun k hk =>
    ⟨by simp; omega, h (1 + k) (by omega)⟩
  exact ⟨code, args, by simp [writeComplete, h0, messageArgs, ha]⟩

/-- A write-completion upcall that goes on dispatched some message. -/
theorem writeComplete_eq_next {s t : State} (h : writeComplete s = .next t) :
    ∃ code args, dispatchMessage code args s = .next t := by
  obtain ⟨code, -, h⟩ := orFault_eq_next.mp h
  obtain ⟨args, -, h⟩ := orFault_eq_next.mp h
  exact ⟨code, args, h⟩

/-- What a dispatched message can leave, the call's inversion and the unknown command together. -/
theorem dispatchMessage_eq_next {code : Byte} {args : List Byte} {s t : State}
    (h : dispatchMessage code args s = .next t) :
    (∃ c, (c = .unknownCmd ∨ c = .argCount) ∧ t = s.abandon c) ∨
    t = s.takeDraw.abandon .handlerReject ∨ t = doneState code args s.takeDraw ∨
    ∃ b, 1 ≤ b.length ∧ b.length ≤ 33 ∧ t = respondedState code args b s.takeDraw := by
  cases hl : s.config.lookup code with
  | none =>
    rw [dispatchMessage_of_none args hl] at h
    exact .inl ⟨_, .inl rfl, by simpa using h.symm⟩
  | some e =>
    rw [dispatchMessage_of_some args hl] at h
    rcases checkedCall_cases e.declaredLength code args (entryAnswer e code args s) s with
      hc | hc | hc | ⟨b, -, h1, h2, hc⟩ | hc | ⟨k, hc⟩ <;> rw [hc] at h <;> simp at h
    · exact .inl ⟨_, .inr rfl, h.symm⟩
    · exact .inr (.inl h.symm)
    · exact .inr (.inr (.inl h.symm))
    · exact .inr (.inr (.inr ⟨b, h1, h2, h.symm⟩))

/-- What a command can leave. -/
theorem runCommand_eq_next {c : Command} {code : Byte} {args : List Byte} {s t : State}
    (h : runCommand c code args s = .next t) :
    t = s.abandon .argCount ∨ t = s.takeDraw.abandon .handlerReject ∨ t = doneState code args s.takeDraw ∨
    ∃ b, 1 ≤ b.length ∧ b.length ≤ 33 ∧ t = respondedState code args b s.takeDraw := by
  rw [runCommand_eq] at h
  rcases checkedCall_cases c.declaredLength code args (commandAnswer c code args s) s with
    hc | hc | hc | ⟨b, -, h1, h2, hc⟩ | hc | ⟨k, hc⟩ <;> rw [hc] at h <;> simp at h
  · exact .inl h.symm
  · exact .inr (.inl h.symm)
  · exact .inr (.inr (.inl h.symm))
  · exact .inr (.inr (.inr ⟨b, h1, h2, h.symm⟩))

/-- PureRead always answers (43_dispatcher.md R180). -/
theorem pureRead_eq (s : State) :
    pureRead s = .ok { s.takeDraw with
      tx := s.tx.put 0 (invertByte s.currentDraw.statusIn), txWritten := s.txWritten.insert 0, txLen := 1 } := by
  simp [pureRead, memWrite]

/-! ### The receive and transmit branches -/

theorem receiveByte_stores (d : Byte) {s : State} (h : s.rxCount < 34) :
    receiveByte d s = .next { s with
      rx := s.rx.put s.rxCount d, rxWritten := s.rxWritten.insert s.rxCount, rxCount := s.rxCount + 1,
      ack := decide (s.rxCount + 1 < 34) } := by
  simp only [receiveByte, show s.rxCount < Config.rxCap from h, if_true,
    memWrite_of_lt (b := .rx) d s (show s.rxCount < Buffer.cap .rx from h), orFault_ok]
  rfl

theorem receiveByte_overflows (d : Byte) {s : State} (h : 34 ≤ s.rxCount) :
    receiveByte d s = .next ((s.flagError .rxOverflow).setAck false) := by
  simp [receiveByte, show ¬ s.rxCount < Config.rxCap from Nat.not_lt.mpr h]

theorem startRead_of_get {s : State} {v : Byte} (hw : 0 ∈ s.txWritten) (h : s.tx.get 0 = some v) :
    startRead s = .next { s with txData := v, txValid := true, txCount := 1, state := .rr, ack := true } := by
  have hr : memRead .tx 0 s = .ok v := memRead_eq_ok.mpr ⟨by simp, hw, h⟩
  simp only [startRead, hr, orFault_ok]
  rfl

theorem sendNext_of_get {s : State} {v : Byte} (hc : s.txCount < 33) (hw : s.txCount ∈ s.txWritten)
    (h : s.tx.get s.txCount = some v) :
    sendNext s = .next { s with txData := v, txValid := true, txCount := s.txCount + 1, ack := true } := by
  have hr : memRead .tx s.txCount s = .ok v := memRead_eq_ok.mpr ⟨hc, hw, h⟩
  simp only [sendNext, hr, orFault_ok]
  rfl

theorem startRead_eq_next {s t : State} (h : startRead s = .next t) : ∃ v, s.tx.get 0 = some v ∧
    t = { s with txData := v, txValid := true, txCount := 1, state := .rr, ack := true } := by
  obtain ⟨v, hv, h⟩ := orFault_eq_next.mp h
  have hg := (memRead_eq_ok.mp hv).2.2
  exact ⟨v, hg, by simpa [State.emitTx, State.goto, State.setAck] using h.symm⟩

theorem sendNext_eq_next {s t : State} (h : sendNext s = .next t) : s.txCount < 33 ∧
    ∃ v, s.tx.get s.txCount = some v ∧
      t = { s with txData := v, txValid := true, txCount := s.txCount + 1, ack := true } := by
  obtain ⟨v, hv, h⟩ := orFault_eq_next.mp h
  obtain ⟨hc, -, hg⟩ := memRead_eq_ok.mp hv
  exact ⟨hc, v, hg, by simpa [State.emitTx, State.setAck] using h.symm⟩

end Sys2Proof.Machine
end

