-- ==== Sys2Proof/Laws/Exec.lean ====
section
/-! SUPPORT. The inversion of exec: every way an instruction can answer a next state, with the condition of each. -/

namespace Sys2Proof.Machine

/-- What a handler's call or the dispatcher can leave of a state (43_dispatcher.md R170). -/
inductive DispatchEnd : State → State → Prop
  | abandons (s : State) (c : Cause) (hc : c ≠ .rxOverflow) : DispatchEnd s (s.abandon c)
  | rejects (s : State) : DispatchEnd s (s.takeDraw.abandon .handlerReject)
  | completes (s : State) (code : Byte) (args : List Byte) : DispatchEnd s (doneState code args s.takeDraw)
  | responds (s : State) (code : Byte) (args b : List Byte) (h1 : 1 ≤ b.length) (h2 : b.length ≤ 33) :
      DispatchEnd s (respondedState code args b s.takeDraw)

theorem dispatchMessage_end {code : Byte} {args : List Byte} {s t : State}
    (h : dispatchMessage code args s = .next t) : DispatchEnd s t := by
  rcases dispatchMessage_eq_next h with ⟨c, hc, rfl⟩ | rfl | rfl | ⟨b, h1, h2, rfl⟩
  · exact .abandons s c (by rcases hc with rfl | rfl <;> decide)
  · exact .rejects s
  · exact .completes s code args
  · exact .responds s code args b h1 h2

theorem runCommand_end {c : Command} {code : Byte} {args : List Byte} {s t : State}
    (h : runCommand c code args s = .next t) : DispatchEnd s t := by
  rcases runCommand_eq_next h with rfl | rfl | rfl | ⟨b, h1, h2, rfl⟩
  · exact .abandons s .argCount (by decide)
  · exact .rejects s
  · exact .completes s code args
  · exact .responds s code args b h1 h2

/-- A dispatch keeps the marks of rx, and adds to those of tx the bytes of a response alone. -/
theorem DispatchEnd.marks {s t : State} (h : DispatchEnd s t) :
    t.rxWritten = s.rxWritten ∧ ∀ k, k ∈ t.txWritten ↔ k ∈ s.txWritten ∨ (t.state = .wtrr ∧ k < t.txLen) := by
  cases h with
  | responds code args b h1 h2 =>
    refine ⟨rfl, fun k => ?_⟩
    show k ∈ markRange 0 b.length s.txWritten ↔ k ∈ s.txWritten ∨ (TransactionState.wtrr = .wtrr ∧ k < b.length)
    rw [mem_markRange, or_comm]
    simp
  | _ => simp [doneState]

/-- The ways an instruction goes on: `Goes i s t` has one constructor for each branch of each meaning. -/
inductive Goes : Instr → State → State → Prop
  | amw (s : State) : Goes .amw s { s with
      state := .wr, rxCount := 0, txCount := 0, txLen := 0, err := false, ack := true, txValid := false, stop := false,
      rxWritten := [], txWritten := [] }
  | stores (d : Byte) (s : State) (hs : s.state = .wr ∨ s.state = .wtrr) (hc : s.rxCount < 34) :
      Goes (.dra d) s { s with
        rx := s.rx.put s.rxCount d, rxWritten := s.rxWritten.insert s.rxCount, rxCount := s.rxCount + 1,
        ack := decide (s.rxCount + 1 < 34), txValid := false, stop := false }
  | overflows (d : Byte) (s : State) (hs : s.state = .wr ∨ s.state = .wtrr) (hc : 34 ≤ s.rxCount) :
      Goes (.dra d) s { s with
        err := true, ack := false, txValid := false, stop := false, trace := .cause .rxOverflow :: s.trace }
  | abandons (i : Instr) (s : State) (c : Cause) (hi : isBusEvent i = true) (hb : i ≠ .be) (ha : i ≠ .amw)
      (hc : c ≠ .rxOverflow) (hd : i = .dta → s.state ≠ .idle ∧ s.txCount ≠ s.txLen)
      (hr : (∃ d, i = .dra d) → s.state = .idle ∨ s.state = .rr) :
      Goes i s ((s.beginEvent.abandon c).setAck true)
  | pastEnd (s : State) (h : s.state = .idle ∨ s.txCount = s.txLen) :
      Goes .dta s ((s.beginEvent.abandon .txPastEnd).setAck false)
  | busError (s : State) : Goes .be s ((s.beginEvent.emitStop.abandon .busError).setAck true)
  | sorIdle (s : State) (h : s.state = .idle) : Goes .sor s (s.beginEvent.setAck true)
  | sorOverflowed (s : State) (h : s.state = .wr) (he : s.err = true) :
      Goes .sor s ((s.beginEvent.setAck true).goto .idle)
  | sorDispatches (s t : State) (h : s.state = .wr) (he : s.err = false) (hc : s.rxCount ≠ 0)
      (hd : DispatchEnd (s.beginEvent.setAck true) t) : Goes .sor s t
  | pureRead (s : State) (h : s.state = .idle) : Goes .amr s { s.beginEvent.takeDraw with
      state := .rr, txLen := 1, txCount := 1, tx := s.tx.put 0 (invertByte s.currentDraw.statusIn),
      txWritten := [0], txData := invertByte s.currentDraw.statusIn, txValid := true, ack := true }
  | startsRead (s : State) (v : Byte) (h : s.state = .wtrr) (hv : s.tx.get 0 = some v) : Goes .amr s { s with
      state := .rr, txCount := 1, txData := v, txValid := true, ack := true, stop := false }
  | sends (s : State) (v : Byte) (h : s.state = .rr) (hn : s.txCount ≠ s.txLen) (hc : s.txCount < 33)
      (hv : s.tx.get s.txCount = some v) : Goes .dta s { s with
        txCount := s.txCount + 1, txData := v, txValid := true, ack := true, stop := false }
  | endsRead (s : State) (h : s.state = .rr) (hn : s.txCount = s.txLen) :
      Goes .dtn s ((s.beginEvent.goto .idle).setAck true)
  | fgInit (s : State) : Goes .fgInit s { State.reset with
      config := s.config, inputs := s.inputs, draws := s.draws, drawCount := s.drawCount, trace := s.trace }
  | fgEnable (s : State) : Goes .fgEnable s { s.clearOutputs with en := true, fgResult := none }
  | fgDisable (s : State) : Goes .fgDisable s { s.clearOutputs with en := false, fgResult := none }
  | fgReadErr (s : State) : Goes .fgReadErr s { s.clearOutputs with fgResult := some s.err }
  | command (i : Instr) (s t : State) (hi : i.commandParts.isSome = true) (hd : DispatchEnd s t) : Goes i s t

theorem execAmw_eq (s : State) : execAmw s = .next { s with
    state := .wr, rxCount := 0, txCount := 0, txLen := 0, err := false, ack := true, txValid := false,
    stop := false, rxWritten := [], txWritten := [] } := by
  by_cases h : s.state = .idle
  · simp [execAmw, State.beginEvent_of_idle s h, h, State.goto, State.setAck]
  · simp [execAmw, State.beginEvent_of_ne_idle s h, h, State.goto, State.setAck, State.clearTransaction]

/-- An instruction that is a command has no other meaning than its command's. -/
theorem goes_of_command {i : Instr} {s t : State} {c : Command} {code : Byte} {args : List Byte}
    (hp : i.commandParts = some (c, code, args)) (h : exec i s = .next t) : Goes i s t := by
  rw [exec_command hp] at h
  exact .command i s t (by simp [hp]) (runCommand_end h)

theorem goes_of_dra {d : Byte} {s t : State} (h : exec (.dra d) s = .next t) : Goes (.dra d) s t := by
  simp only [exec, execDra] at h
  cases hs : s.state with
  | idle =>
    simp only [State.beginEvent_state, hs] at h
    cases h
    exact .abandons _ s _ rfl (by simp) (by simp) (by decide) (by simp) fun _ => .inl hs
  | rr =>
    simp only [State.beginEvent_state, hs] at h
    cases h
    exact .abandons _ s _ rfl (by simp) (by simp) (by decide) (by simp) fun _ => .inr hs
  | wr =>
    simp only [State.beginEvent_of_ne_idle s (by simp [hs]), hs] at h
    by_cases hc : s.rxCount < 34
    · rw [receiveByte_stores d (by simpa using hc)] at h
      cases h
      exact hs ▸ .stores d s (.inl hs) hc
    · rw [receiveByte_overflows d (by simpa using hc)] at h
      cases h
      exact hs ▸ .overflows d s (.inl hs) (by omega)
  | wtrr =>
    simp only [State.beginEvent_of_ne_idle s (by simp [hs]), hs] at h
    by_cases hc : s.rxCount < 34
    · rw [receiveByte_stores d (by simpa using hc)] at h
      cases h
      exact hs ▸ .stores d s (.inr hs) hc
    · rw [receiveByte_overflows d (by simpa using hc)] at h
      cases h
      exact hs ▸ .overflows d s (.inr hs) (by omega)

theorem goes_of_sor {s t : State} (h : exec .sor s = .next t) : Goes .sor s t := by
  simp only [exec, execSor] at h
  cases hs : s.state with
  | idle =>
    simp only [State.setAck_state, State.beginEvent_state, hs] at h
    cases h
    exact .sorIdle s hs
  | rr =>
    simp only [State.setAck_state, State.beginEvent_state, hs] at h
    cases h
    exact .abandons .sor s .unexpectedEvent rfl (by simp) (by simp) (by decide) (by simp) (by simp)
  | wtrr =>
    simp only [State.setAck_state, State.beginEvent_state, hs] at h
    cases h
    exact .abandons .sor s .unexpectedEvent rfl (by simp) (by simp) (by decide) (by simp) (by simp)
  | wr =>
    simp only [State.setAck_state, State.beginEvent_state, hs] at h
    by_cases he : s.err = true
    · rw [if_pos (by simp [he, hs])] at h
      cases h
      exact .sorOverflowed s hs he
    · rw [if_neg (by simp [he, hs])] at h
      by_cases hc : s.rxCount = 0
      · rw [if_pos (by simp [hc])] at h
        cases h
        exact .abandons .sor s .malformedEmpty rfl (by simp) (by simp) (by decide) (by simp) (by simp)
      · rw [if_neg (by simp [hc, hs])] at h
        obtain ⟨code, args, h⟩ := writeComplete_eq_next h
        exact .sorDispatches s t hs (by simpa using he) hc (dispatchMessage_end h)

theorem goes_of_amr {s t : State} (h : exec .amr s = .next t) : Goes .amr s t := by
  simp only [exec, execAmr] at h
  cases hs : s.state with
  | idle =>
    simp only [State.beginEvent_state, hs, pureRead_eq, orFault_ok] at h
    rw [startRead_of_get (v := invertByte s.currentDraw.statusIn) (by simp) (by simp [Memory.get_put_self])] at h
    cases h
    simpa [State.takeDraw, hs] using Goes.pureRead s hs
  | wtrr =>
    simp only [State.beginEvent_of_ne_idle s (by simp [hs]), hs] at h
    obtain ⟨v, hv, rfl⟩ := startRead_eq_next h
    exact .startsRead s v hs hv
  | wr =>
    simp only [State.beginEvent_state, hs] at h
    cases h
    exact .abandons .amr s .unexpectedEvent rfl (by simp) (by simp) (by decide) (by simp) (by simp)
  | rr =>
    simp only [State.beginEvent_state, hs] at h
    cases h
    exact .abandons .amr s .unexpectedEvent rfl (by simp) (by simp) (by decide) (by simp) (by simp)

theorem goes_of_dta {s t : State} (h : exec .dta s = .next t) : Goes .dta s t := by
  simp only [exec, execDta] at h
  by_cases hx : s.state = .idle ∨ s.txCount = s.txLen
  · rw [if_pos (by rcases hx with hx | hx <;> simp [hx])] at h
    cases h
    exact .pastEnd s hx
  · obtain ⟨hi, hn⟩ := not_or.mp hx
    rw [if_neg (by simp [hi, hn])] at h
    cases hs : s.state with
    | idle => exact absurd hs hi
    | rr =>
      simp only [State.beginEvent_of_ne_idle s hi, hs] at h
      obtain ⟨hc, v, hv, rfl⟩ := sendNext_eq_next h
      exact hs ▸ .sends s v hs hn hc hv
    | wr =>
      simp only [State.beginEvent_state, hs] at h
      cases h
      exact .abandons .dta s .unexpectedEvent rfl (by simp) (by simp) (by decide) (fun _ => ⟨hi, hn⟩) (by simp)
    | wtrr =>
      simp only [State.beginEvent_state, hs] at h
      cases h
      exact .abandons .dta s .unexpectedEvent rfl (by simp) (by simp) (by decide) (fun _ => ⟨hi, hn⟩) (by simp)

theorem goes_of_dtn {s t : State} (h : exec .dtn s = .next t) : Goes .dtn s t := by
  simp only [exec, execDtn] at h
  have ab : ∀ c, c ≠ .rxOverflow → Goes .dtn s ((s.beginEvent.abandon c).setAck true) := fun c hc =>
    .abandons .dtn s c rfl (by simp) (by simp) hc (by simp) (by simp)
  cases hs : s.state with
  | rr =>
    simp only [State.beginEvent_state, hs] at h
    by_cases hn : s.txCount = s.txLen
    · rw [if_pos (by simp [hn])] at h
      cases h
      exact .endsRead s hs hn
    · rw [if_neg (by simp [hn, hs])] at h
      cases h
      exact ab _ (by decide)
  | idle => simp only [State.beginEvent_state, hs] at h; cases h; exact ab _ (by decide)
  | wr => simp only [State.beginEvent_state, hs] at h; cases h; exact ab _ (by decide)
  | wtrr => simp only [State.beginEvent_state, hs] at h; cases h; exact ab _ (by decide)

/-- Every next state of an instruction comes about in one of the listed ways. -/
theorem exec_eq_next {i : Instr} {s t : State} (h : exec i s = .next t) : Goes i s t := by
  cases i with
  | amw => rw [exec, execAmw_eq] at h; cases h; exact .amw s
  | dra d => exact goes_of_dra h
  | drn d => cases h; exact .abandons _ s _ rfl (by simp) (by simp) (by decide) (by simp) (by simp)
  | sor => exact goes_of_sor h
  | amr => exact goes_of_amr h
  | dta => exact goes_of_dta h
  | dtn => exact goes_of_dtn h
  | ldtau => cases h; exact .abandons _ s _ rfl (by simp) (by simp) (by decide) (by simp) (by simp)
  | be => cases h; exact .busError s
  | unr => cases h; exact .abandons _ s _ rfl (by simp) (by simp) (by decide) (by simp) (by simp)
  | unrRsvAB low => cases h; exact .abandons _ s _ rfl (by simp) (by simp) (by decide) (by simp) (by simp)
  | unrRsvCF low => cases h; exact .abandons _ s _ rfl (by simp) (by simp) (by decide) (by simp) (by simp)
  | fgInit => cases h; exact .fgInit s
  | fgEnable => cases h; exact .fgEnable s
  | fgDisable => cases h; exact .fgDisable s
  | fgReadErr => cases h; exact .fgReadErr s
  | cmdIdentify code args => exact goes_of_command rfl h
  | cmdSetMotorType code args => exact goes_of_command rfl h
  | cmdSetTimerDivider code args => exact goes_of_command rfl h
  | cmdEnableOutputs code args => exact goes_of_command rfl h
  | cmdDisableOutputs code args => exact goes_of_command rfl h
  | cmdSetSpeed code args => exact goes_of_command rfl h
  | cmdSetDirection code args => exact goes_of_command rfl h
  | cmdSetStepCount code args => exact goes_of_command rfl h
  | cmdStepForward code args => exact goes_of_command rfl h
  | cmdStepBackward code args => exact goes_of_command rfl h
  | cmdStepsForward code args => exact goes_of_command rfl h
  | cmdStepsBackward code args => exact goes_of_command rfl h
  | cmdStepSpeed code args => exact goes_of_command rfl h
  | cmdStepRemaining code args => exact goes_of_command rfl h
  | cmdStepRelease code args => exact goes_of_command rfl h

end Sys2Proof.Machine
end

