-- ==== Sys2Proof/Laws/PerInstr.lean ====
section
/-! SUPPORT. The per-instruction family RoundTrip: decoding the encoding of a well-formed instruction gives it back. -/

namespace Sys2Proof.Laws.RoundTrip

/-- Decoding undoes encoding, under every configuration in which the instruction is well formed. -/
def Statement (i : Instr) : Prop := ∀ cfg : Config, i.wf cfg = true → decode cfg (encode i) = .ok i

/-- A message whose code is bound to a command and whose length is the declared one decodes to that command. -/
theorem decodeMessage_of_wf {cfg : Config} {c : Command} {code : Byte} {args : List Byte}
    (h : (decide (cfg.lookup code = some (.default c)) && decide (args.length + 1 = c.declaredLength)) = true) :
    decodeMessage cfg (code :: args) = .ok (c.toInstr code args) := by
  obtain ⟨h1, h2⟩ : cfg.lookup code = some (.default c) ∧ args.length + 1 = c.declaredLength := by simpa using h
  simp [decodeMessage, h1, h2]

/-- The tag of a word put together from a tag and a data byte. -/
theorem eventTag_eventWord (tag : BitVec 4) (d : Byte) : eventTag (eventWord tag d) = tag := by
  change BitVec.extractLsb' 8 4 (HAppend.hAppend (γ := BitVec (4 + 8)) tag d) = tag
  apply BitVec.eq_of_getLsbD_eq
  intro i hi
  rw [BitVec.getLsbD_extractLsb', BitVec.getLsbD_append]
  simp [hi]

/-- The data of a word put together from a tag and a data byte. -/
theorem eventData_eventWord (tag : BitVec 4) (d : Byte) : eventData (eventWord tag d) = d := by
  change BitVec.extractLsb' 0 8 (HAppend.hAppend (γ := BitVec (4 + 8)) tag d) = d
  apply BitVec.eq_of_getLsbD_eq
  intro i hi
  rw [BitVec.getLsbD_extractLsb', BitVec.getLsbD_append]
  simp [hi]

theorem amw : Statement .amw := fun _ _ => rfl

theorem dra (d : Byte) : Statement (.dra d) := fun _ _ => by
  simp [encode, decode, decodeEvent, eventTag_eventWord, eventData_eventWord]

theorem drn (d : Byte) : Statement (.drn d) := fun _ _ => by
  simp [encode, decode, decodeEvent, eventTag_eventWord, eventData_eventWord]

theorem sor : Statement .sor := fun _ _ => rfl

theorem amr : Statement .amr := fun _ _ => rfl

theorem dta : Statement .dta := fun _ _ => rfl

theorem dtn : Statement .dtn := fun _ _ => rfl

theorem ldtau : Statement .ldtau := fun _ _ => rfl

theorem be : Statement .be := fun _ _ => rfl

theorem unr : Statement .unr := fun _ _ => rfl

theorem unrRsvAB (low : BitVec 1) : Statement (.unrRsvAB low) := fun _ _ => by
  have : ∀ low : BitVec 1, decodeEvent (eventWord (0b101#3 ++ low) 0) = .unrRsvAB low := by decide
  exact congrArg Except.ok (this low)

theorem unrRsvCF (low : BitVec 2) : Statement (.unrRsvCF low) := fun _ _ => by
  have : ∀ low : BitVec 2, decodeEvent (eventWord (0b11#2 ++ low) 0) = .unrRsvCF low := by decide
  exact congrArg Except.ok (this low)

theorem fgInit : Statement .fgInit := fun _ _ => rfl

theorem fgEnable : Statement .fgEnable := fun _ _ => rfl

theorem fgDisable : Statement .fgDisable := fun _ _ => rfl

theorem fgReadErr : Statement .fgReadErr := fun _ _ => rfl

theorem cmdIdentify (code : Byte) (args : List Byte) : Statement (.cmdIdentify code args) := fun _ h => decodeMessage_of_wf h

theorem cmdSetMotorType (code : Byte) (args : List Byte) : Statement (.cmdSetMotorType code args) := fun _ h => decodeMessage_of_wf h

theorem cmdSetTimerDivider (code : Byte) (args : List Byte) : Statement (.cmdSetTimerDivider code args) := fun _ h => decodeMessage_of_wf h

theorem cmdEnableOutputs (code : Byte) (args : List Byte) : Statement (.cmdEnableOutputs code args) := fun _ h => decodeMessage_of_wf h

theorem cmdDisableOutputs (code : Byte) (args : List Byte) : Statement (.cmdDisableOutputs code args) := fun _ h => decodeMessage_of_wf h

theorem cmdSetSpeed (code : Byte) (args : List Byte) : Statement (.cmdSetSpeed code args) := fun _ h => decodeMessage_of_wf h

theorem cmdSetDirection (code : Byte) (args : List Byte) : Statement (.cmdSetDirection code args) := fun _ h => decodeMessage_of_wf h

theorem cmdSetStepCount (code : Byte) (args : List Byte) : Statement (.cmdSetStepCount code args) := fun _ h => decodeMessage_of_wf h

theorem cmdStepForward (code : Byte) (args : List Byte) : Statement (.cmdStepForward code args) := fun _ h => decodeMessage_of_wf h

theorem cmdStepBackward (code : Byte) (args : List Byte) : Statement (.cmdStepBackward code args) := fun _ h => decodeMessage_of_wf h

theorem cmdStepsForward (code : Byte) (args : List Byte) : Statement (.cmdStepsForward code args) := fun _ h => decodeMessage_of_wf h

theorem cmdStepsBackward (code : Byte) (args : List Byte) : Statement (.cmdStepsBackward code args) := fun _ h => decodeMessage_of_wf h

theorem cmdStepSpeed (code : Byte) (args : List Byte) : Statement (.cmdStepSpeed code args) := fun _ h => decodeMessage_of_wf h

theorem cmdStepRemaining (code : Byte) (args : List Byte) : Statement (.cmdStepRemaining code args) := fun _ h => decodeMessage_of_wf h

theorem cmdStepRelease (code : Byte) (args : List Byte) : Statement (.cmdStepRelease code args) := fun _ h => decodeMessage_of_wf h

end Sys2Proof.Laws.RoundTrip
end

