-- ==== Sys2Proof/Tests/Slice0.lean ====
section
/-! SUPPORT. The tests: words written out from the spec's encodings, ill-formed terms, single steps with the expected
values of spec/95_test_vectors.md, and a witness for the hypotheses of each statement. -/

namespace Sys2Proof.Tests

open Sys2Proof.Machine Sys2Proof.Stated

/-! ### Helpers -/

/-- A reply of a handler that returns, accepts, and says an armed sequence is running. -/
def testReply : Reply := { returns := true, accepts := true, stepRunning := true, answer := .done }

/-- The draw of the test-only bindings: the port, and a HANDLER that rejects set motor type with 0xFF, whatever EN is,
and accepts everything else (95_test_vectors.md section 0). -/
def testDraw : Draw where
  statusIn := 0x0F
  replies :=
    [(⟨0x02, [0xFF], false⟩, { testReply with accepts := false }),
     (⟨0x02, [0xFF], true⟩, { testReply with accepts := false })]
  otherwise := testReply

/-- A draw whose HANDLER gives one reply to every call. -/
def always (r : Reply) : Draw := { statusIn := 0x0F, replies := [], otherwise := r }

/-- A state in the notation of 95_test_vectors.md section 0 (STATE, RXCOUNT, TXLEN, TXCOUNT, ERR, ACK; EN 0), every byte
that the counters count written in the current transaction. -/
def setup (st : TransactionState) (rxCount txLen txCount : Nat) (err ack : Bool) : State :=
  { State.reset with
    state := st, rxCount := rxCount, txLen := txLen, txCount := txCount, err := err, ack := ack,
    rx := cellsFrom 0 (List.replicate rxCount 0xEE), tx := cellsFrom 0 (List.replicate txLen 0x20),
    rxWritten := List.range rxCount, txWritten := List.range txLen, config := testConfig, draws := [testDraw] }

/-- The state in which the message is complete, with the draw its handler gets. -/
def message (bytes : List Byte) (d : Draw) : State :=
  deliverMessage bytes { setup .idle 0 0 0 false true with draws := [d] }

/-- A view of the next state, if there is one. -/
def after {α : Type} (o : Host.Outcome State Fault Refusal) (view : State → α) : Option α :=
  match o with
  | .next t => some (view t)
  | .fault _ => none
  | .refused _ => none

/-- (STATE, RXCOUNT, TXLEN, TXCOUNT, ERR, ACK) in the notation of 95_test_vectors.md section 0. -/
structure Regs where
  state : TransactionState
  rxCount : Nat
  txLen : Nat
  txCount : Nat
  err : Bool
  ack : Bool
deriving DecidableEq

/-- The registers a vector lists. -/
def regs (s : State) : Regs := ⟨s.state, s.rxCount, s.txLen, s.txCount, s.err, s.ack⟩

/-- (the byte on the wire if there is one, stop). -/
def outs (s : State) : Option Byte × Bool := (if s.txValid then some s.txData else none, s.stop)

/-- The step of one event word. -/
def run (w : EventWord) (s : State) : Host.Outcome State Fault Refusal := exec (decodeEvent w) s

/-! ### Decoding: the words of 30_encoding.md R70, R71, R73, R77 and the messages of 44_commands.md R195 -/

theorem test_decode_amw : decodeEvent 0b000011111111#12 = .amw := by decide
theorem test_decode_dra : decodeEvent 0b000101000001#12 = .dra 0x41 := by decide
theorem test_decode_drn : decodeEvent 0b001010000001#12 = .drn 0x81 := by decide
theorem test_decode_sor : decodeEvent 0b001110101011#12 = .sor := by decide
theorem test_decode_amr : decodeEvent 0b010000000000#12 = .amr := by decide
theorem test_decode_dta : decodeEvent 0b010100000000#12 = .dta := by decide
theorem test_decode_dtn : decodeEvent 0b011000000001#12 = .dtn := by decide
theorem test_decode_ldtau : decodeEvent 0b011100000000#12 = .ldtau := by decide
theorem test_decode_be : decodeEvent 0b100000000000#12 = .be := by decide
theorem test_decode_unr : decodeEvent 0b100100110111#12 = .unr := by decide
theorem test_decode_reserved_a_b :
    decodeEvent 0b101000000000#12 = .unrRsvAB 0 ∧ decodeEvent 0b101100010010#12 = .unrRsvAB 1 := by decide
theorem test_decode_reserved_c_f :
    decodeEvent 0b110000000000#12 = .unrRsvCF 0 ∧ decodeEvent 0b110100000000#12 = .unrRsvCF 1 ∧
    decodeEvent 0b111000000000#12 = .unrRsvCF 2 ∧ decodeEvent 0b111111111111#12 = .unrRsvCF 3 := by decide
theorem test_decode_foreground :
    decodeForeground 0b00#2 = .fgInit ∧ decodeForeground 0b01#2 = .fgEnable ∧
    decodeForeground 0b10#2 = .fgDisable ∧ decodeForeground 0b11#2 = .fgReadErr := by decide
theorem test_decode_identify : decode testConfig (.message [0x01]) = .ok (.cmdIdentify 0x01 []) := by rfl
theorem test_decode_set_motor_type :
    decode testConfig (.message [0x02, 0xFF]) = .ok (.cmdSetMotorType 0x02 [0xFF]) := by rfl
theorem test_decode_set_timer_divider :
    decode testConfig (.message [0x30, 0x07]) = .ok (.cmdSetTimerDivider 0x30 [0x07]) := by rfl
theorem test_decode_enable_outputs :
    decode testConfig (.message [0x31]) = .ok (.cmdEnableOutputs 0x31 []) := by rfl
theorem test_decode_disable_outputs :
    decode testConfig (.message [0x32]) = .ok (.cmdDisableOutputs 0x32 []) := by rfl
theorem test_decode_set_speed :
    decode testConfig (.message [0x10, 0x64, 0x32]) = .ok (.cmdSetSpeed 0x10 [0x64, 0x32]) := by rfl
theorem test_decode_set_direction :
    decode testConfig (.message [0x33, 0x01, 0x02]) = .ok (.cmdSetDirection 0x33 [0x01, 0x02]) := by rfl
theorem test_decode_set_step_count :
    decode testConfig (.message [0x34, 0x01, 0x02]) = .ok (.cmdSetStepCount 0x34 [0x01, 0x02]) := by rfl
theorem test_decode_step_forward :
    decode testConfig (.message [0x35]) = .ok (.cmdStepForward 0x35 []) := by rfl
theorem test_decode_step_backward :
    decode testConfig (.message [0x36]) = .ok (.cmdStepBackward 0x36 []) := by rfl
theorem test_decode_steps_forward :
    decode testConfig (.message [0x37]) = .ok (.cmdStepsForward 0x37 []) := by rfl
theorem test_decode_steps_backward :
    decode testConfig (.message [0x38]) = .ok (.cmdStepsBackward 0x38 []) := by rfl
theorem test_decode_step_speed :
    decode testConfig (.message [0x39, 0x09]) = .ok (.cmdStepSpeed 0x39 [0x09]) := by rfl
theorem test_decode_step_remaining :
    decode testConfig (.message [0x20]) = .ok (.cmdStepRemaining 0x20 []) := by rfl
theorem test_decode_step_release :
    decode testConfig (.message [0x3A]) = .ok (.cmdStepRelease 0x3A []) := by rfl

/-- 43_dispatcher.md R172, R173; 40_receive.md R120; an external entry is no default command. -/
theorem test_decode_rejects_by_name :
    decode testConfig (.message []) = .error .emptyMessage ∧
    decode testConfig (.message [0x99, 0x01]) = .error (.unknownCommand 0x99) ∧
    decode testConfig (.message [0x10, 0x64]) = .error (.wrongLength 0x10 2 3) ∧
    decode testConfig (.message [0x50, 0x00]) = .error (.externalEntry 0x50) := ⟨rfl, rfl, rfl, rfl⟩

/-- V-X4 to V-X8 (95_test_vectors.md section 2.4). -/
theorem test_decode_raw_statuses :
    decodeInput testConfig (.raw 0x60 0x00) = .amw ∧ decodeInput testConfig (.raw 0x80 0x41) = .dra 0x41 ∧
    decodeInput testConfig (.raw 0xC8 0x00) = .ldtau ∧ decodeInput testConfig (.raw 0x00 0x00) = .be ∧
    decodeInput testConfig (.raw 0x70 0x00) = .unr ∧ decodeInput testConfig (.raw 0xF8 0x00) = .unr := by decide

/-- The expansions of 30_encoding.md R79, with the words of program P1 and of P2's first message
(95_test_vectors.md section 3). -/
theorem test_expansions :
    processCallInputs 1 [0x01] =
      [.event 0x000#12, .event 0x101#12, .event 0x300#12, .event 0x400#12, .event 0x600#12] ∧
    writeInputs [0x10, 0x64, 0x32] =
      [.event 0x000#12, .event 0x110#12, .event 0x164#12, .event 0x132#12, .event 0x300#12] ∧
    readInputs 3 = [.event 0x400#12, .event 0x500#12, .event 0x500#12, .event 0x600#12] := by decide

/-! ### Ill-formed terms -/

theorem test_wf_refuses_unbound_code : Instr.wf testConfig (.cmdIdentify 0x99 []) = false := by decide
theorem test_wf_refuses_code_of_another_command : Instr.wf testConfig (.cmdIdentify 0x20 []) = false := by decide
theorem test_wf_refuses_missing_argument : Instr.wf testConfig (.cmdSetSpeed 0x10 [0x64]) = false := by decide
theorem test_wf_refuses_extra_argument : Instr.wf testConfig (.cmdIdentify 0x01 [0x00]) = false := by decide
theorem test_entry_wf_refuses_length_0_and_35 :
    (Entry.external 0).wf = false ∧ (Entry.external 35).wf = false ∧ (Entry.external 34).wf = true := by decide
theorem test_config_wf_refuses_one_code_twice :
    Config.wf { testConfig with table := [(0x01, .default .identify), (0x01, .external 2)] } = false := by decide
theorem test_config_wf_refuses_bad_entry :
    Config.wf { testConfig with table := [(0x01, .external 35)] } = false := by decide
theorem test_config_wf_accepts_the_test_bindings : testConfig.wf = true := by decide

/-! ### Single steps: bus events (95_test_vectors.md sections 2.1 to 2.3) -/

/-- V-R2. -/
theorem test_amw_drops_a_read :
    after (run 0x000 (setup .rr 0 3 1 false true)) regs = some ⟨.wr, 0, 0, 0, false, true⟩ := by decide
/-- V-R4. -/
theorem test_amw_recovers_from_overflow :
    after (run 0x0FF (setup .wr 34 0 0 true false)) regs = some ⟨.wr, 0, 0, 0, false, true⟩ := by decide
/-- V-R6. -/
theorem test_dra_fills_rx :
    after (run 0x17E (setup .wr 33 0 0 false true)) (fun t => (regs t, t.rx.get 33)) =
      some (⟨.wr, 34, 0, 0, false, false⟩, some 0x7E) := by decide
/-- V-R9. -/
theorem test_dra_overflows_in_wtrr :
    after (run 0x105 (setup .wtrr 34 1 0 false false)) regs = some ⟨.wtrr, 34, 1, 0, true, false⟩ := by decide
/-- V-R12. -/
theorem test_drn_abandons_a_write :
    after (run 0x2FF (setup .wr 34 0 0 false false)) (fun t => (regs t, t.rx.get 33)) =
      some (⟨.idle, 34, 0, 0, true, true⟩, some 0xEE) := by decide
/-- V-R13. -/
theorem test_drn_in_idle_sets_err_again :
    after (run 0x200 (setup .idle 0 0 0 true true)) regs = some ⟨.idle, 0, 0, 0, true, true⟩ := by decide
/-- V-R16. -/
theorem test_sor_in_idle_clears_err :
    after (run 0x300 (setup .idle 2 0 0 true true)) regs = some ⟨.idle, 0, 0, 0, false, true⟩ := by decide
/-- A byte that an earlier transaction left in rx is not one of this message: the read faults (10_state.md R32;
93_implementation_defined.md item 2). -/
theorem test_sor_never_reads_an_earlier_transaction :
    run 0x300 { setup .wr 2 0 0 false true with rxWritten := [0] } = .fault (.unwrittenByte .rx 1) := rfl
/-- A pure read after a longer one: the byte the earlier transaction left at tx[1] is not one of this transaction. -/
theorem test_amr_starts_a_transaction :
    after (run 0x400 (setup .idle 4 2 2 false true)) (fun t => (t.rxWritten, t.txWritten, t.tx.get 1)) =
      some ([], [0], some 0x20) := by decide
/-- V-R14. -/
theorem test_sor_on_an_empty_write :
    after (run 0x300 (setup .wr 0 0 0 false true)) (fun t => (regs t, t.trace)) =
      some (⟨.idle, 0, 0, 0, true, true⟩, [.cause .malformedEmpty]) := by decide
/-- V-T4. -/
theorem test_amr_reads_the_inverted_port :
    after (run 0x400 { setup .idle 0 0 0 false true with draws := [{ testDraw with statusIn := 0xA5 }] })
      (fun t => (regs t, t.tx.get 0, outs t)) =
      some (⟨.rr, 0, 1, 1, false, true⟩, some 0x5A, (some 0x5A, false)) := by decide
/-- V-T6, with the setup's byte in tx[0]. -/
theorem test_amr_keeps_err :
    after (run 0x400 (setup .wtrr 34 1 0 true false)) (fun t => (regs t, outs t)) =
      some (⟨.rr, 34, 1, 1, true, true⟩, (some 0x20, false)) := by decide
/-- V-T9. -/
theorem test_dta_sends_the_next_byte :
    after (run 0x500 { setup .rr 0 2 1 false true with tx := [(0, 0x10), (1, 0x20)] })
      (fun t => (regs t, outs t)) = some (⟨.rr, 0, 2, 2, false, true⟩, (some 0x20, false)) := by decide
/-- V-T11. -/
theorem test_dta_in_idle_is_past_the_end :
    after (run 0x500 (setup .idle 4 1 1 false true)) (fun t => (regs t, outs t)) =
      some (⟨.idle, 0, 0, 0, true, false⟩, (none, false)) := by decide
/-- V-T14. -/
theorem test_dtn_ends_a_read :
    after (run 0x600 (setup .rr 0 1 1 false true)) regs = some ⟨.idle, 0, 1, 1, false, true⟩ := by decide
/-- V-T15. -/
theorem test_dtn_premature :
    after (run 0x600 (setup .rr 0 3 1 false true)) regs = some ⟨.idle, 0, 3, 1, true, true⟩ := by decide
/-- V-T20. -/
theorem test_ldtau_abandons :
    after (run 0x700 (setup .rr 0 1 1 false true)) regs = some ⟨.idle, 0, 1, 1, true, true⟩ := by decide
/-- V-E3. -/
theorem test_be_stops :
    after (run 0x800 (setup .rr 0 2 1 false true)) (fun t => (regs t, outs t)) =
      some (⟨.idle, 0, 2, 1, true, true⟩, (none, true)) := by decide
/-- V-E2. -/
theorem test_be_in_idle :
    after (run 0x800 (setup .idle 2 0 0 false true)) (fun t => (regs t, outs t)) =
      some (⟨.idle, 0, 0, 0, true, true⟩, (none, true)) := by decide
/-- V-E8. -/
theorem test_unr_abandons :
    after (run 0x937 (setup .rr 0 1 1 false true)) (fun t => (regs t, outs t)) =
      some (⟨.idle, 0, 1, 1, true, true⟩, (none, false)) := by decide
/-- V-E5. -/
theorem test_reserved_a_b_abandons :
    after (run 0xA00 (setup .wr 1 0 0 false true)) regs = some ⟨.idle, 1, 0, 0, true, true⟩ := by decide
/-- V-E6. -/
theorem test_reserved_c_f_abandons :
    after (run 0xF00 (setup .idle 0 0 0 false true)) regs = some ⟨.idle, 0, 0, 0, true, true⟩ := by decide

/-! ### Single steps: the foreground (95_test_vectors.md section 2.7) -/

/-- V-F1. -/
theorem test_fg_init :
    after (exec .fgInit { setup .rr 0 2 1 true true with en := true })
      (fun t => (regs t, t.en, t.rx.get 0, t.tx.get 0)) =
      some (⟨.idle, 0, 0, 0, false, true⟩, false, none, none) := by decide
/-- V-F2, after a step that emitted a byte (10_state.md R28). -/
theorem test_fg_enable :
    after (exec .fgEnable { setup .idle 0 0 0 false true with txValid := true }) (fun t => (regs t, t.en, outs t)) =
      some (⟨.idle, 0, 0, 0, false, true⟩, true, none, false) := by decide
/-- V-F3, after a step that asserted stop (10_state.md R29). -/
theorem test_fg_disable :
    after (exec .fgDisable { setup .wr 2 0 0 false true with en := true, stop := true })
      (fun t => (regs t, t.en, outs t)) =
      some (⟨.wr, 2, 0, 0, false, true⟩, false, none, false) := by decide
/-- V-F5, V-F6. -/
theorem test_fg_read_err :
    after (exec .fgReadErr (setup .wr 34 0 0 true false)) (fun t => (regs t, t.fgResult)) =
      some (⟨.wr, 34, 0, 0, true, false⟩, some true) ∧
    after (exec .fgReadErr (setup .wr 3 0 0 false true)) (fun t => t.fgResult) = some (some false) := by decide
/-- P5, line 5: the STOP of line 4 is gone, ERR is still there. -/
theorem test_fg_read_err_after_a_bus_error :
    after (exec .fgReadErr { setup .idle 2 0 0 true true with stop := true })
      (fun t => (regs t, t.fgResult, outs t)) =
      some (⟨.idle, 2, 0, 0, true, true⟩, some true, none, false) := by decide

/-! ### Single steps: commands, each dispatched by a StopOrRestart (95_test_vectors.md sections 2.5, 2.6) -/

/-- STATE, TXLEN, ERR and the trace after the message's StopOrRestart. -/
def dispatched (bytes : List Byte) (d : Draw) : Option (TransactionState × Nat × Bool × List TraceEvent) :=
  after (run 0x300 (message bytes d)) fun t => (t.state, t.txLen, t.err, t.trace)

/-- V-R19, V-C1, V-D8. -/
theorem test_identify :
    after (run 0x300 (message [0x01] testDraw)) (fun t => (regs t, t.tx.get 0)) =
      some (⟨.wtrr, 1, 1, 0, false, true⟩, some 0x5A) ∧
    dispatched [0x01, 0x00] testDraw = some (.idle, 0, true, [.cause .argCount]) := by decide
/-- V-D7, V-D6. -/
theorem test_set_motor_type :
    dispatched [0x02, 0x01] testDraw = some (.idle, 0, false, [.handlerCall 0x02 [0x01] false]) ∧
    dispatched [0x02, 0xFF] testDraw =
      some (.idle, 0, true, [.cause .handlerReject]) := by decide
/-- V-C3. -/
theorem test_set_timer_divider :
    dispatched [0x30, 0x07] testDraw = some (.idle, 0, false, [.handlerCall 0x30 [0x07] false]) ∧
    dispatched [0x30, 0x07, 0x08] testDraw = some (.idle, 0, true, [.cause .argCount]) := by decide
/-- V-C4: EN unchanged. -/
theorem test_enable_outputs :
    after (run 0x300 (message [0x31] testDraw)) (fun t => (regs t, t.en)) =
      some (⟨.idle, 1, 0, 0, false, true⟩, false) ∧
    dispatched [0x31, 0x00] testDraw = some (.idle, 0, true, [.cause .argCount]) := by decide
/-- V-C5: EN unchanged. -/
theorem test_disable_outputs :
    after (run 0x300 { message [0x32] testDraw with en := true }) (fun t => (regs t, t.en)) =
      some (⟨.idle, 1, 0, 0, false, true⟩, true) ∧
    dispatched [0x32, 0x00] testDraw = some (.idle, 0, true, [.cause .argCount]) := by decide
/-- V-D5 with EN 1 (P2, line 6). -/
theorem test_set_speed_in_arrival_order :
    after (run 0x300 { message [0x10, 0x64, 0x32] testDraw with en := true }) (fun t => (regs t, t.trace)) =
      some (⟨.idle, 3, 0, 0, false, true⟩, [.handlerCall 0x10 [0x64, 0x32] true]) := by decide
/-- V-D3, V-D4. -/
theorem test_set_speed_wrong_lengths :
    dispatched [0x10, 0x64] testDraw = some (.idle, 0, true, [.cause .argCount]) ∧
    dispatched [0x10, 0x64, 0x32, 0x00] testDraw = some (.idle, 0, true, [.cause .argCount]) := by decide
/-- V-C7. -/
theorem test_set_direction :
    dispatched [0x33, 0x01, 0x02] testDraw = some (.idle, 0, false, [.handlerCall 0x33 [0x01, 0x02] false]) ∧
    dispatched [0x33, 0x01, 0x02, 0x03] testDraw = some (.idle, 0, true, [.cause .argCount]) := by decide
/-- V-C8. -/
theorem test_set_step_count :
    dispatched [0x34, 0x01, 0x02] testDraw = some (.idle, 0, false, [.handlerCall 0x34 [0x01, 0x02] false]) ∧
    dispatched [0x34] testDraw = some (.idle, 0, true, [.cause .argCount]) := by decide
/-- V-C9. -/
theorem test_step_forward :
    dispatched [0x35] testDraw = some (.idle, 0, false, [.handlerCall 0x35 [] false]) ∧
    dispatched [0x35, 0x01] testDraw = some (.idle, 0, true, [.cause .argCount]) := by decide
/-- V-C10. -/
theorem test_step_backward :
    dispatched [0x36] testDraw = some (.idle, 0, false, [.handlerCall 0x36 [] false]) ∧
    dispatched [0x36, 0x01] testDraw = some (.idle, 0, true, [.cause .argCount]) := by decide
/-- V-C11. -/
theorem test_steps_forward :
    dispatched [0x37] testDraw = some (.idle, 0, false, [.handlerCall 0x37 [] false]) ∧
    dispatched [0x37, 0x01] testDraw = some (.idle, 0, true, [.cause .argCount]) := by decide
/-- V-C12. -/
theorem test_steps_backward :
    dispatched [0x38] testDraw = some (.idle, 0, false, [.handlerCall 0x38 [] false]) ∧
    dispatched [0x38, 0x01] testDraw = some (.idle, 0, true, [.cause .argCount]) := by decide
/-- V-C13. -/
theorem test_step_speed :
    dispatched [0x39, 0x09] (always { testReply with accepts := false }) =
      some (.idle, 0, true, [.cause .handlerReject]) ∧
    dispatched [0x39] testDraw = some (.idle, 0, true, [.cause .argCount]) := by decide
/-- V-D12. -/
theorem test_step_remaining :
    after (run 0x300 (message [0x20] testDraw)) (fun t => (regs t, t.tx.get 0, t.trace)) =
      some (⟨.wtrr, 1, 1, 0, false, true⟩, some 0x01, [.handlerCall 0x20 [] false]) := by decide
/-- V-C15. -/
theorem test_step_release :
    dispatched [0x3A] testDraw = some (.idle, 0, false, [.handlerCall 0x3A [] false]) ∧
    dispatched [0x3A, 0x01] testDraw = some (.idle, 0, true, [.cause .argCount]) := by decide
/-- V-D2: the lookup before the length. -/
theorem test_unknown_command :
    dispatched [0x99, 0x01, 0x02] testDraw = some (.idle, 0, true, [.cause .unknownCmd]) := by decide
/-- V-D9, V-D10, V-D11 at an external entry. -/
theorem test_responses_of_0_33_and_34_bytes :
    dispatched [0x50, 0x00] (always { testReply with answer := .respond [] }) =
      some (.idle, 0, false, [.handlerCall 0x50 [0x00] false]) ∧
    after (run 0x300 (message [0x50, 0x00] (always { testReply with answer := .respond (List.replicate 33 0xAB) })))
      (fun t => (regs t, t.tx.get 0, t.tx.get 32)) =
      some (⟨.wtrr, 2, 33, 0, false, true⟩, some 0xAB, some 0xAB) ∧
    dispatched [0x50, 0x00] (always { testReply with answer := .respond (List.replicate 34 0xAB) }) = none := by decide

/-! ### The host's two questions on a word -/

/-- A 12-bit row is asked about with 16 bits, a foreground op with 8. -/
theorem test_table_words :
    decodeTableWord 16 0x1FF = some (.dra 0xFF) ∧ decodeTableWord 16 0xC00 = some (.unrRsvCF 0) ∧
    decodeTableWord 8 0x02 = some .fgDisable ∧ decodeTableWord 16 0x1000 = none := by decide

/-- The very next step runs the delivered word; a command byte is the code of a complete message. -/
theorem test_fetched_words_run :
    after (step ((setup .wr 0 0 0 false true).withFetchWord 16 0x1FF)) regs =
      some ⟨.wr, 1, 0, 0, false, true⟩ ∧
    after (step ((setup .idle 0 0 0 false true).withFetchWord 8 0x10)) (fun t => t.trace) =
      some [.handlerCall 0x10 [0x00, 0x00] false] := by decide

/-! ### Witnesses: encoding -/

theorem witness_DecodeOfEncodeIsIdentity :
    Instr.wf testConfig (.cmdSetSpeed 0x10 [0x64, 0x32]) = true ∧ Instr.wf testConfig (.dra 0xFF) = true := by decide
theorem witness_EveryEventWordIsOneEvent :
    10 ≤ (eventTag 0xA00#12).toNat ∧ 10 ≤ (eventTag 0xFFF#12).toNat := by decide
theorem witness_DataFieldOnlyForReceivedBytes :
    (0x0#4 ≠ 0x1#4 ∧ 0x0#4 ≠ 0x2#4) ∧ (0x3#4 ≠ 0x1#4 ∧ 0x3#4 ≠ 0x2#4) := by decide
theorem witness_DecodedTermsAreWellFormed :
    decode testConfig (.message [0x10, 0x64, 0x32]) = .ok (.cmdSetSpeed 0x10 [0x64, 0x32]) ∧
    decode testConfig (.foreground 0b11) = .ok .fgReadErr ∧ decode testConfig (.event 0xFFF) = .ok (.unrRsvCF 3) :=
  ⟨rfl, rfl, rfl⟩
theorem witness_RawStatusIsTranslatedOnce :
    (∀ p ∈ testConfig.statusMap, p.1 ≠ 0x70) ∧ testConfig.statusMap = defaultStatusMap := by decide

/-- Fifteen pairwise distinct codes, 0 to 14. -/
def numbered (c : Command) : Byte := BitVec.ofNat 8 c.ctorIdx

theorem witness_DefaultTableBindsTheCommands :
    (∀ c c', numbered c = numbered c' → c = c') ∧
    ({ testConfig with table := defaultTable numbered } : Config).table = defaultTable numbered ∧
    ∀ c, numbered c ≠ 0xFF :=
  ⟨fun c c' => by cases c <;> cases c' <;> decide, rfl, fun c => by cases c <;> decide⟩

/-! ### Witnesses: steps and invariants -/

/-- The state with one pending input. -/
def pending (x : Input) (s : State) : State := { s with inputs := [x] }

theorem witness_StepRunsTheDecodedInput :
    (pending (.event 0x1FF) State.reset).inputs = Input.event 0x1FF :: [] ∧
    (pending (.foreground 0b11) State.reset).inputs = Input.foreground 0b11 :: [] := ⟨rfl, rfl⟩
theorem witness_StepWithoutInputChangesNothing : State.reset.inputs = [] := rfl

/-- A delivered message of 1 to 34 bytes is a completed one. -/
theorem completes_message (code : Byte) (args : List Byte) (d : Draw) (h : args.length + 1 ≤ 34) :
    CompletesMessage (message (code :: args) d) code args := by
  refine ⟨rfl, rfl, rfl, h, fun i hi => ?_⟩
  show i ∈ List.range (args.length + 1) ∧ (cellsFrom 0 (code :: args)).get i = (code :: args)[i]?
  exact ⟨List.mem_range.mpr hi, by simp [Memory.get_cellsFrom]⟩

theorem witness_SorRunsTheDecodedCommand :
    CompletesMessage (message [0x01] testDraw) 0x01 [] ∧
    decodeMessage (message [0x01] testDraw).config [0x01] = .ok (.cmdIdentify 0x01 []) :=
  ⟨completes_message _ _ _ (by decide), rfl⟩
theorem witness_completed_message_of_34_bytes :
    CompletesMessage (message (0x10 :: List.replicate 33 0) testDraw) 0x10 (List.replicate 33 0) :=
  completes_message _ _ _ (by decide)
theorem witness_StepKeepsTheInvariants :
    (pending (.event 0x1AA) (setup .wr 33 0 0 false true)).Inv ∧
    ∃ t, step (pending (.event 0x1AA) (setup .wr 33 0 0 false true)) = .next t := ⟨by decide, _, rfl⟩
theorem witness_InvariantsExcludeBufferFaults :
    (pending (.event 0x400) (setup .wtrr 34 33 0 true false)).Inv ∧
    (pending (.event 0x500) (setup .rr 1 33 33 false true)).Inv := ⟨by decide, by decide⟩

/-! ### Witnesses: bus events -/

theorem witness_DraStoresOrFlagsOrAbandons :
    ((setup .wr 0 0 0 false true).state = .wr ∧ (setup .wr 0 0 0 false true).rxCount < 34) ∧
    ((setup .wtrr 33 1 0 false true).state = .wtrr ∧ (setup .wtrr 33 1 0 false true).rxCount < 34) ∧
    ((setup .wr 34 0 0 false false).state = .wr ∧ 34 ≤ (setup .wr 34 0 0 false false).rxCount) ∧
    (setup .idle 3 0 0 false true).state = .idle ∧ (setup .rr 2 1 1 false true).state = .rr := by decide
theorem witness_SorFollowsItsCases :
    (setup .idle 2 0 0 true true).state = .idle ∧
    ((setup .wr 34 0 0 true false).state = .wr ∧ (setup .wr 34 0 0 true false).err = true) ∧
    ((setup .wr 0 0 0 false true).state = .wr ∧ (setup .wr 0 0 0 false true).err = false ∧
      (setup .wr 0 0 0 false true).rxCount = 0) ∧
    ((setup .wr 1 0 0 false true).state = .wr ∧ (setup .wr 1 0 0 false true).err = false ∧
      (setup .wr 1 0 0 false true).rxCount ≠ 0) ∧
    (setup .rr 1 1 1 false true).state = .rr ∧ (setup .wtrr 1 1 0 false true).state = .wtrr := by decide
theorem witness_AmrStartsARead :
    (setup .idle 0 0 0 false true).state = .idle ∧
    ((setup .wtrr 1 1 0 false true).state = .wtrr ∧ 0 ∈ (setup .wtrr 1 1 0 false true).txWritten ∧
      (setup .wtrr 1 1 0 false true).tx.get 0 = some 0x20) ∧
    (setup .wr 2 0 0 false true).state = .wr ∧ (setup .rr 0 2 1 false true).state = .rr := by decide
theorem witness_DtaSendsOrAbandons :
    (setup .idle 4 1 1 false true).state = .idle ∧
    (setup .rr 0 33 33 false true).txCount = (setup .rr 0 33 33 false true).txLen ∧
    ((setup .rr 0 33 32 false true).state = .rr ∧
      (setup .rr 0 33 32 false true).txCount ≠ (setup .rr 0 33 32 false true).txLen ∧
      (setup .rr 0 33 32 false true).txCount < 33 ∧
      (setup .rr 0 33 32 false true).txCount ∈ (setup .rr 0 33 32 false true).txWritten ∧
      (setup .rr 0 33 32 false true).tx.get 32 = some 0x20) ∧
    ((setup .wtrr 1 1 0 false true).state = .wtrr ∧
      (setup .wtrr 1 1 0 false true).txCount ≠ (setup .wtrr 1 1 0 false true).txLen) := by decide
theorem witness_DtnEndsARead :
    ((setup .rr 0 1 1 false true).state = .rr ∧
      (setup .rr 0 1 1 false true).txCount = (setup .rr 0 1 1 false true).txLen) ∧
    ((setup .rr 0 2 1 false true).state = .rr ∧
      (setup .rr 0 2 1 false true).txCount ≠ (setup .rr 0 2 1 false true).txLen) ∧
    (setup .wr 1 0 0 false true).state ≠ .rr := by decide

/-! ### Witnesses: the dispatcher -/

theorem witness_UnknownCommandSetsErr :
    CompletesMessage (message [0x99] testDraw) 0x99 [] ∧
    (message [0x99] testDraw).config.lookup 0x99 = none := ⟨completes_message _ _ _ (by decide), rfl⟩
theorem witness_WrongLengthSetsErr :
    CompletesMessage (message [0x10, 0x64] testDraw) 0x10 [0x64] ∧
    (message [0x10, 0x64] testDraw).config.lookup 0x10 = some (.default .setSpeed) ∧
    (message [0x10, 0x64] testDraw).rxCount ≠ (Entry.default .setSpeed).declaredLength :=
  ⟨completes_message _ _ _ (by decide), rfl, by decide⟩

/-- A message to the external entry, whose handler gives the answer. -/
def external (r : HandlerResult) : State := message [0x50, 0x00] (always { testReply with answer := r })

theorem witness_external_entry (r : HandlerResult) :
    CompletesMessage (external r) 0x50 [0x00] ∧ (external r).config.lookup 0x50 = some (.external 2) ∧
    (external r).rxCount = (Entry.external 2).declaredLength ∧ (replyOf (external r) 0x50 [0x00]).returns = true ∧
    answerOf (external r) 0x50 [0x00] (.external 2) = r := ⟨completes_message _ _ _ (by decide), rfl, rfl, rfl, rfl⟩
theorem witness_RejectedMessageSetsErr :
    CompletesMessage (external .reject) 0x50 [0x00] ∧
    (external .reject).config.lookup 0x50 = some (.external 2) ∧
    (external .reject).rxCount = (Entry.external 2).declaredLength ∧
    (replyOf (external .reject) 0x50 [0x00]).returns = true ∧ answerOf (external .reject) 0x50 [0x00] (.external 2) = .reject :=
  witness_external_entry _
theorem witness_ResponseArmsTheRead :
    (1 ≤ [(0x5A : Byte)].length ∧ 1 ≤ (List.replicate 33 (0xAB : Byte)).length ∧
      (List.replicate 33 (0xAB : Byte)).length ≤ 33) ∧
    answerOf (external (.respond [0x5A])) 0x50 [0x00] (.external 2) = .respond [0x5A] ∧
    answerOf (external (.respond (List.replicate 33 0xAB))) 0x50 [0x00] (.external 2) = .respond (List.replicate 33 0xAB) ∧
    CompletesMessage (external (.respond (List.replicate 33 0xAB))) 0x50 [0x00] ∧
    (external (.respond (List.replicate 33 0xAB))).config.lookup 0x50 = some (.external 2) ∧
    (external (.respond (List.replicate 33 0xAB))).rxCount = (Entry.external 2).declaredLength ∧
    (replyOf (external (.respond (List.replicate 33 0xAB))) 0x50 [0x00]).returns = true :=
  ⟨by decide, rfl, rfl, completes_message _ _ _ (by decide), rfl, rfl, rfl⟩
theorem witness_DoneOrEmptyResponseEndsInIdle :
    (CompletesMessage (external .done) 0x50 [0x00] ∧ answerOf (external .done) 0x50 [0x00] (.external 2) = .done) ∧
    CompletesMessage (external (.respond [])) 0x50 [0x00] ∧
    (external (.respond [])).config.lookup 0x50 = some (.external 2) ∧
    (external (.respond [])).rxCount = (Entry.external 2).declaredLength ∧
    (replyOf (external (.respond [])) 0x50 [0x00]).returns = true ∧
    answerOf (external (.respond [])) 0x50 [0x00] (.external 2) = .respond [] :=
  ⟨⟨(witness_external_entry _).1, rfl⟩, witness_external_entry _⟩
theorem witness_OverlongResponseIsRefused :
    33 < (List.replicate 34 (0xAB : Byte)).length ∧
    CompletesMessage (external (.respond (List.replicate 34 0xAB))) 0x50 [0x00] ∧
    (external (.respond (List.replicate 34 0xAB))).config.lookup 0x50 = some (.external 2) ∧
    (external (.respond (List.replicate 34 0xAB))).rxCount = (Entry.external 2).declaredLength ∧
    (replyOf (external (.respond (List.replicate 34 0xAB))) 0x50 [0x00]).returns = true ∧
    answerOf (external (.respond (List.replicate 34 0xAB))) 0x50 [0x00] (.external 2) = .respond (List.replicate 34 0xAB) :=
  ⟨by decide, completes_message _ _ _ (by decide), rfl, rfl, rfl, rfl⟩

/-- A draw whose handler does not return. -/
def hangingDraw : Draw := always { testReply with returns := false }

theorem witness_HangingHandlerIsStuck :
    (CompletesMessage (message [0x01] hangingDraw) 0x01 [] ∧
      (message [0x01] hangingDraw).config.lookup 0x01 = some (.default .identify) ∧
      (message [0x01] hangingDraw).rxCount = (Entry.default .identify).declaredLength ∧
      (replyOf (message [0x01] hangingDraw) 0x01 []).returns = false) ∧
    (Instr.cmdIdentify 0x01 []).commandParts = some (.identify, 0x01, []) ∧
    ([] : List Byte).length + 1 = Command.identify.declaredLength :=
  ⟨⟨completes_message _ _ _ (by decide), rfl, rfl, rfl⟩, rfl, rfl⟩

/-! ### Witnesses: commands -/

theorem witness_DoneCommandsComplete :
    (([] : List Byte).length + 1 = 1 ∧ (replyOf (message [0x31] testDraw) 0x31 []).returns = true) ∧
    [(0x00 : Byte)].length + 1 ≠ 1 := by decide
theorem witness_AcceptingCommandsComplete :
    ([(0x01 : Byte)].length + 1 = 2 ∧ [(0x64 : Byte), 0x32].length + 1 = 3 ∧
      (replyOf (message [0x02, 0x01] testDraw) 0x02 [0x01]).returns = true ∧
      (replyOf (message [0x02, 0x01] testDraw) 0x02 [0x01]).accepts = true) ∧
    ((replyOf (message [0x02, 0xFF] testDraw) 0x02 [0xFF]).returns = true ∧
      (replyOf (message [0x02, 0xFF] testDraw) 0x02 [0xFF]).accepts = false) ∧
    ([] : List Byte).length + 1 ≠ 2 ∧ [(0x64 : Byte)].length + 1 ≠ 3 := by decide
theorem witness_RespondingCommandsComplete :
    (([] : List Byte).length + 1 = 1 ∧ (replyOf (message [0x20] testDraw) 0x20 []).returns = true) ∧
    [(0x00 : Byte)].length + 1 ≠ 1 := by decide
theorem witness_CommandsLeaveTheRest :
    (Instr.cmdIdentify 0x01 []).commandParts.isSome = true ∧
    (∃ t, exec (.cmdIdentify 0x01 []) (message [0x01] testDraw) = .next t ∧ t.state = .wtrr) ∧
    (Instr.cmdStepForward 0x35 []).commandParts.isSome = true ∧
    ∃ t, exec (.cmdStepForward 0x35 []) (message [0x35] testDraw) = .next t ∧ t.state ≠ .wtrr :=
  ⟨rfl, ⟨_, rfl, rfl⟩, rfl, _, rfl, by decide⟩

/-! ### Witnesses: the whole machine -/

theorem witness_EventsStartAfresh :
    isBusEvent .dta = true ∧ (setup .idle 4 1 1 true true).state = .idle := by decide
theorem witness_AckIsZeroInTwoCases :
    (isBusEvent (.dra 0x7E) = true ∧ (setup .wr 33 0 0 false true).state = .wr ∧
      33 ≤ (setup .wr 33 0 0 false true).rxCount ∧
      ∃ t, exec (.dra 0x7E) (setup .wr 33 0 0 false true) = .next t ∧ t.ack = false) ∧
    (isBusEvent .dta = true ∧ ∃ t, exec .dta (setup .idle 0 0 0 false true) = .next t ∧ t.ack = false) ∧
    ∃ t, exec (.dra 0x7E) (setup .wr 32 0 0 false true) = .next t ∧ t.ack = true :=
  ⟨⟨rfl, rfl, by decide, _, rfl, rfl⟩, ⟨rfl, _, rfl, rfl⟩, _, rfl, rfl⟩
theorem witness_OtherEventsEndInIdle :
    isBusEvent .be = true ∧ Instr.be ≠ .amw ∧ (∀ d, Instr.be ≠ .dra d) ∧ Instr.be ≠ .amr ∧ Instr.be ≠ .dta ∧
    Instr.be ≠ .sor := ⟨rfl, by decide, fun _ => by simp, by decide, by decide, by decide⟩
theorem witness_OutputsOfABusEvent :
    isBusEvent .amr = true ∧ isBusEvent .be = true ∧
    (∃ t, exec .amr (setup .idle 0 0 0 false true) = .next t ∧ t.txValid = true) ∧
    ∃ t, exec .be (setup .idle 0 0 0 false true) = .next t ∧ t.txValid = false ∧ t.stop = true :=
  ⟨rfl, rfl, ⟨_, rfl, rfl⟩, _, rfl, rfl, rfl⟩
theorem witness_OutputsArePulsesOfOneStep :
    (∃ t, step (pending (.event 0x800) (setup .rr 0 2 1 false true)) = .next t ∧ t.stop = true) ∧
    (∃ t, step (pending (.event 0x400) (setup .wtrr 1 1 0 false true)) = .next t ∧ t.txValid = true) ∧
    ∃ t, step (pending (.foreground 0b11) { setup .idle 2 0 0 true true with stop := true }) = .next t ∧
      t.txValid = false ∧ decodeInput testConfig (.foreground 0b11) ≠ .fgInit :=
  ⟨⟨_, rfl, rfl⟩, ⟨_, rfl, rfl⟩, _, rfl, rfl, by decide⟩
theorem witness_OnlyOwnersWriteTheBuffers :
    (∃ t, exec (.dra 0x41) (setup .wr 0 0 0 false true) = .next t ∧ t.rx ≠ (setup .wr 0 0 0 false true).rx) ∧
    ∃ t, exec .amr (setup .idle 0 0 0 false true) = .next t ∧ t.tx ≠ (setup .idle 0 0 0 false true).tx :=
  ⟨⟨_, rfl, by decide⟩, _, rfl, by decide⟩
theorem witness_OnlyForegroundWritesEnabled :
    ∃ t, exec .fgEnable State.reset = .next t ∧ t.en ≠ State.reset.en := ⟨_, rfl, by decide⟩
theorem witness_EnabledFlagDoesNotGateTheBus :
    (isForegroundOp .sor = false ∧ AsksFor .sor (message [0x31] (always testReply)) 0x31 [] ∧
      ∀ code args, AsksFor .sor (message [0x31] (always testReply)) code args →
        replyTo (message [0x31] (always testReply)).currentDraw ⟨code, args, true⟩ =
        replyTo (message [0x31] (always testReply)).currentDraw
          ⟨code, args, (message [0x31] (always testReply)).en⟩) ∧
    isForegroundOp .dta = false ∧ ∀ code args, ¬ AsksFor .dta State.reset code args :=
  ⟨⟨rfl, .inl ⟨rfl, completes_message _ _ _ (by decide)⟩, fun _ _ _ => rfl⟩, rfl,
    fun _ _ h => by simp [AsksFor, Instr.commandParts] at h⟩
/-- Two draws that differ elsewhere and reply alike to the call of set motor type with 0x01. -/
theorem witness_HandlerIsAskedForItsCall :
    (CompletesMessage (message [0x02, 0x01] testDraw) 0x02 [0x01] ∧
      (message [0x02, 0x01] testDraw).config.lookup 0x02 = some (.default .setMotorType) ∧
      (message [0x02, 0x01] testDraw).rxCount = (Entry.default .setMotorType).declaredLength) ∧
    ((Instr.cmdSetMotorType 0x02 [0x01]).commandParts = some (.setMotorType, 0x02, [0x01]) ∧
      [(0x01 : Byte)].length + 1 = Command.setMotorType.declaredLength) ∧
    replyTo testDraw ⟨0x02, [0x01], (message [0x02, 0x01] testDraw).en⟩ =
      replyTo (always testReply) ⟨0x02, [0x01], (message [0x02, 0x01] testDraw).en⟩ ∧ testDraw ≠ always testReply :=
  ⟨⟨completes_message _ _ _ (by decide), rfl, rfl⟩, ⟨rfl, rfl⟩, by decide, by decide⟩
theorem witness_ErrIsClearedNowhereElse :
    (∃ t, exec .sor (setup .idle 2 0 0 true true) = .next t ∧ (setup .idle 2 0 0 true true).err = true ∧
      t.err = false) ∧
    ∃ t, exec .amw (setup .wr 34 0 0 true false) = .next t ∧ (setup .wr 34 0 0 true false).err = true ∧
      t.err = false := ⟨⟨_, rfl, rfl, rfl⟩, _, rfl, rfl, rfl⟩
theorem witness_ErrIsSetWithACause :
    (∃ t, exec (.dra 0x55) (setup .wr 34 0 0 false false) = .next t ∧
      (setup .wr 34 0 0 false false).err = false ∧ t.err = true) ∧
    ∃ t, exec .be (setup .wr 2 0 0 false true) = .next t ∧ (setup .wr 2 0 0 false true).err = false ∧
      t.err = true := ⟨⟨_, rfl, rfl, rfl⟩, _, rfl, rfl, rfl⟩

/-- A transaction after one that filled rx: the bytes are still there, and none is of this transaction. -/
def stale : State := { setup .wr 34 0 0 false false with rxCount := 0, rxWritten := [] }

theorem witness_BufferAccessLaws :
    33 < Buffer.rx.cap ∧ 32 < Buffer.tx.cap ∧ Buffer.rx.cap ≤ 34 ∧ Buffer.tx.cap ≤ 33 ∧
    (Buffer.tx ≠ Buffer.rx ∨ (0 : Nat) ≠ 0) ∧ (State.reset.mem .rx).get 33 = none ∧
    ((stale.mem .rx).get 33 = some 0xEE ∧ 33 ∉ stale.written .rx) ∧
    ((setup .rr 0 33 1 false true).mem .tx).get 32 = some 0x20 ∧ 32 ∈ (setup .rr 0 33 1 false true).written .tx := by
  decide

/-! ### Witnesses: phases of a transaction -/

theorem witness_WritePhaseStoresInArrivalOrder :
    (setup .wr 0 0 0 false true).state = .wr ∧ (setup .wr 0 0 0 false true).rxCount = 0 ∧
    (List.replicate 34 (0xEE : Byte)).length ≤ 34 ∧
    ({ setup .wr 0 0 0 false true with inputs := receiveInputs (List.replicate 34 0xEE) } : State).inputs =
      receiveInputs (List.replicate 34 0xEE) ++ [] ∧ 1 ≤ (List.replicate 34 (0xEE : Byte)).length :=
  ⟨rfl, rfl, by decide, (List.append_nil _).symm, by decide⟩
theorem witness_ReadPhaseSendsInIndexOrder :
    (setup .rr 1 33 1 false true).state = .rr ∧
    (setup .rr 1 33 1 false true).txCount + 32 ≤ (setup .rr 1 33 1 false true).txLen ∧
    (setup .rr 1 33 1 false true).txLen ≤ 33 ∧
    (∀ k, k < (setup .rr 1 33 1 false true).txLen → (setup .rr 1 33 1 false true).holdsByte .tx k = true) ∧
    ({ setup .rr 1 33 1 false true with inputs := List.replicate 32 (.event (eventWord 0x5 0)) } : State).inputs =
      List.replicate 32 (.event (eventWord 0x5 0)) ++ [] ∧ 1 ≤ 32 :=
  ⟨rfl, by decide, by decide, by decide, (List.append_nil _).symm, by decide⟩
theorem witness_OverlongMessageIsNeverDispatched :
    (setup .wr 34 0 0 false false).state = .wr ∧ 34 ≤ (setup .wr 34 0 0 false false).rxCount := by decide

/-! ### Witnesses: the current transaction -/

theorem witness_MarksFollowTheWrites :
    ((∃ t, exec (.dra 0x7E) (setup .wr 33 0 0 false true) = .next t ∧ 33 ∈ t.rxWritten ∧ 0 ∈ t.rxWritten) ∧
      ¬ StartsTransaction (.dra 0x7E) (setup .wr 33 0 0 false true)) ∧
    (∃ t, exec .amr (setup .idle 0 0 0 false true) = .next t ∧ 0 ∈ t.txWritten) ∧
    ∃ t, exec .sor (message [0x01] testDraw) = .next t ∧ 0 ∈ t.rxWritten ∧ 0 ∈ t.txWritten :=
  ⟨⟨⟨_, rfl, by decide, by decide⟩, by simp [StartsTransaction, isBusEvent, setup]⟩, ⟨_, rfl, by decide⟩, _, rfl,
    by decide, by decide⟩
theorem witness_DispatchedBytesAreOfThisTransaction :
    ∃ t, exec .sor (message [0x10, 0x64, 0x32] testDraw) = .next t ∧
      t.trace = .handlerCall 0x10 [0x64, 0x32] false :: (message [0x10, 0x64, 0x32] testDraw).trace := ⟨_, rfl, rfl⟩
theorem witness_SentBytesAreOfThisTransaction :
    ((setup .rr 1 33 32 false true).Inv ∧
      ∃ t, exec .dta (setup .rr 1 33 32 false true) = .next t ∧ t.txValid = true) ∧
    State.reset.Inv ∧ ∃ t, exec .amr State.reset = .next t ∧ t.txValid = true :=
  ⟨⟨by decide, _, rfl, rfl⟩, by decide, _, rfl, rfl⟩

end Sys2Proof.Tests
end

