-- ==== Sys2Proof/Proofs/Encoding.lean ====
section
/-! The decoder of event words (30_encoding.md R71 to R73): which kinds of instruction it answers, when it reads the data
field, and what the reserved tags and DataReceivedNack do when they run. -/

namespace Sys2Proof.Proofs.Encoding

open Sys2Proof.Machine Sys2Proof.Stated Sys2Proof.Laws.RoundTrip

/-! ### What the decoder answers -/

/-- The decoder answers a bus event for every word, never a foreground operation or a command. -/
theorem exists_eventKind_decodeEvent (w : EventWord) : ∃ e, eventKind (decodeEvent w) = some e := by
  unfold decodeEvent
  split <;> exact ⟨_, rfl⟩

/-- A reserved tag decodes to one of the two reserved constructors. -/
theorem decodeEvent_of_reserved {w : EventWord} (h : 10 ≤ (eventTag w).toNat) :
    (∃ low, decodeEvent w = .unrRsvAB low) ∨ ∃ low, decodeEvent w = .unrRsvCF low := by
  unfold decodeEvent
  split
  case h_11 | h_12 => exact .inl ⟨_, rfl⟩
  case h_13 => exact .inr ⟨_, rfl⟩
  all_goals omega

/-- Away from tags 1 and 2 the tag alone decides what a word decodes to. -/
theorem decodeEvent_eq_of_eventTag_eq {w w' : EventWord} (htag : eventTag w = eventTag w')
    (h1 : eventTag w ≠ 0x1) (h2 : eventTag w ≠ 0x2) : decodeEvent w = decodeEvent w' := by
  unfold decodeEvent
  rw [← htag]
  split
  case h_2 h => exact absurd (BitVec.eq_of_toNat_eq h) h1
  case h_3 h => exact absurd (BitVec.eq_of_toNat_eq h) h2
  all_goals rfl

theorem decodeEvent_eventWord_one (d : Byte) : decodeEvent (eventWord 0x1 d) = .dra d := by
  simp [decodeEvent, eventTag_eventWord, eventData_eventWord]

theorem decodeEvent_eventWord_two (d : Byte) : decodeEvent (eventWord 0x2 d) = .drn d := by
  simp [decodeEvent, eventTag_eventWord, eventData_eventWord]

/-! ### What the decoded instruction does -/

theorem exec_unrRsvAB (low : BitVec 1) (s : State) : exec (.unrRsvAB low) s = exec .unr s := rfl

theorem exec_unrRsvCF (low : BitVec 2) (s : State) : exec (.unrRsvCF low) s = exec .unr s := rfl

/-- The byte of a DataReceivedNack is not stored (30_encoding.md R72; 40_receive.md R115). -/
theorem exec_drn_eq_exec_drn (d d' : Byte) (s : State) : exec (.drn d) s = exec (.drn d') s := rfl

/-- A word with a reserved tag is of the kind Unrecognized and runs as Unrecognized does. -/
theorem reserved_isUnrecognized {w : EventWord} (h : 10 ≤ (eventTag w).toNat) :
    eventKind (decodeEvent w) = some .unrecognized ∧ ∀ s, exec (decodeEvent w) s = exec .unr s := by
  obtain ⟨low, hw⟩ | ⟨low, hw⟩ := decodeEvent_of_reserved h
  · rw [hw]
    exact ⟨rfl, exec_unrRsvAB low⟩
  · rw [hw]
    exact ⟨rfl, exec_unrRsvCF low⟩

/-! ### The obligations -/

/-- Settles O3, by whether the tag is reserved. -/
theorem everyEventWordIsOneEvent : Obligations.EveryEventWordIsOneEvent := by
  intro w
  by_cases h : 10 ≤ (eventTag w).toNat
  · obtain ⟨hkind, hexec⟩ := reserved_isUnrecognized h
    exact ⟨_, hkind, fun _ => ⟨rfl, hexec⟩⟩
  · obtain ⟨e, he⟩ := exists_eventKind_decodeEvent w
    exact ⟨e, he, fun h' => absurd h' h⟩

/-- Settles O4: two words put together from one tag agree on it, and the other two parts are the decoder's equations at
tags 1 and 2 and DataReceivedNack's independence of its byte. -/
theorem dataFieldOnlyForReceivedBytes : Obligations.DataFieldOnlyForReceivedBytes := by
  refine ⟨fun tag d d' h1 h2 => ?_, fun d => ⟨decodeEvent_eventWord_one d, decodeEvent_eventWord_two d⟩,
    exec_drn_eq_exec_drn⟩
  apply decodeEvent_eq_of_eventTag_eq <;> simp only [eventTag_eventWord]
  · exact h1
  · exact h2

end Sys2Proof.Proofs.Encoding
end

/-! The receive-side events (40_receive.md): what the entry action and an abandonment leave, in the words of the
statements, and which branch DataReceivedAck and StopOrRestart take in each state. -/

namespace Sys2Proof.Proofs.Receive

open Sys2Proof.Machine Sys2Proof.Stated

/-! ### The entry action and the abandonment -/

theorem afterEntry_of_ne_idle {s : State} (h : s.state ≠ .idle) : afterEntry s = s := if_neg h

/-- Outside Idle the entry action does nothing (40_receive.md R100). -/
theorem beginEvent_eq_acknowledged {s : State} (h : s.state ≠ .idle) : s.beginEvent = acknowledged s :=
  s.beginEvent_of_ne_idle h

@[simp] theorem acknowledged_state (s : State) : (acknowledged s).state = s.state := rfl

/-- The entry action adds nothing to the trace. -/
theorem afterEntry_trace (s : State) : (afterEntry s).trace = s.trace := by
  unfold afterEntry
  split <;> rfl

/-- The start of an event step is the entry action with the outputs' defaults, but for the marks (40_receive.md R100,
R101). -/
theorem beginEvent_eq_butMarks (s : State) :
    s.beginEvent =
      { acknowledged (afterEntry s) with
        rxWritten := s.beginEvent.rxWritten, txWritten := s.beginEvent.txWritten } := by
  by_cases h : s.state = .idle
  · rw [s.beginEvent_of_idle h, afterEntry, if_pos h]
    rfl
  · rw [beginEvent_eq_acknowledged h, afterEntry_of_ne_idle h]

/-- Outside Idle an event that abandons leaves exactly the abandoned state (60_exceptions.md R241). -/
theorem abandon_eq_abandoned {s : State} (h : s.state ≠ .idle) (c : Cause) (ack : Bool) :
    (s.beginEvent.abandon c).setAck ack = abandoned s c ack false := by
  rw [beginEvent_eq_acknowledged h, abandoned, afterEntry_of_ne_idle h]
  rfl

/-- In every state an event that abandons leaves the abandoned state, but for the marks that the entry action empties in
Idle. -/
theorem abandon_answersButMarks (s : State) (c : Cause) (ack : Bool) :
    AnswersButMarks (.next ((s.beginEvent.abandon c).setAck ack)) (abandoned s c ack false) := by
  rw [beginEvent_eq_butMarks, abandoned, ← afterEntry_trace s]
  exact ⟨_, rfl, rfl⟩

/-! ### DataReceivedAck, by state -/

/-- In WR and WTRR a received byte is taken in or overflows. -/
theorem exec_dra_of_open (d : Byte) {s : State} (h : s.state = .wr ∨ s.state = .wtrr) :
    exec (.dra d) s = receiveByte d (acknowledged s) := by
  have hi : s.state ≠ .idle := by rcases h with h | h <;> simp [h]
  rcases h with h | h <;> simp only [exec, execDra, beginEvent_eq_acknowledged hi, acknowledged_state, h]

/-- In Idle and RR a received byte is unexpected. -/
theorem exec_dra_of_unexpected (d : Byte) {s : State} (h : s.state = .idle ∨ s.state = .rr) :
    exec (.dra d) s = .next ((s.beginEvent.abandon .unexpectedEvent).setAck true) := by
  rcases h with h | h <;> simp only [exec, execDra, State.beginEvent_state, h]

/-! ### StopOrRestart, by state -/

theorem exec_sor_of_idle {s : State} (h : s.state = .idle) : exec .sor s = .next (s.beginEvent.setAck true) := by
  simp only [exec, execSor, State.setAck_state, State.beginEvent_state, h]

/-- In WR the overflow flag comes first, then the empty message; any other message goes to the dispatcher. -/
theorem exec_sor_of_wr {s : State} (h : s.state = .wr) :
    exec .sor s =
      if s.err then .next { acknowledged s with state := .idle }
      else if s.rxCount = 0 then .next (abandoned s .malformedEmpty true false)
      else writeComplete (acknowledged s) := by
  have hi : s.state ≠ .idle := by simp [h]
  simp only [exec, execSor, beginEvent_eq_acknowledged hi, State.setAck_state, acknowledged_state, h,
    abandoned, afterEntry_of_ne_idle hi]
  rfl

/-- In RR and WTRR the end of a write is unexpected. -/
theorem exec_sor_of_unexpected {s : State} (h : s.state = .rr ∨ s.state = .wtrr) :
    exec .sor s = .next (abandoned s .unexpectedEvent true false) := by
  have hi : s.state ≠ .idle := by rcases h with h | h <;> simp [h]
  rw [← abandon_eq_abandoned hi]
  rcases h with h | h <;> simp only [exec, execSor, State.setAck_state, State.beginEvent_state, h] <;> rfl

/-! ### The obligations -/

/-- Settles O16: the model's equation for AddressMatchWrite, its empty marks left out. -/
theorem amwStartsAWrite : Obligations.AmwStartsAWrite :=
  fun s => ⟨_, execAmw_eq s, rfl⟩

/-- Settles O17: a byte within the capacity is one `Memory.put`, and the other two branches end in a named state. -/
theorem draStoresOrFlagsOrAbandons : Obligations.DraStoresOrFlagsOrAbandons := by
  intro d s
  refine ⟨fun hs hc => ?_, fun hs hc => ?_, fun hs => ?_⟩
  · refine ⟨_, (exec_dra_of_open d hs).trans (receiveByte_stores d hc), ?_, fun a ha => ?_, rfl⟩
    · exact Memory.get_put_self s.rx s.rxCount d
    · exact Memory.get_put_ne s.rx d ha
  · exact (exec_dra_of_open d hs).trans (receiveByte_overflows d hc)
  · rw [exec_dra_of_unexpected d hs]
    exact abandon_answersButMarks s .unexpectedEvent true

/-- Settles O18: the byte is not looked at, and what is left is the abandonment. -/
theorem drnAbandonsAlways : Obligations.DrnAbandonsAlways :=
  fun _ s => abandon_answersButMarks s .rxNack true

/-- Settles O19, state by state; in WR each case picks its branch of `exec_sor_of_wr`. -/
theorem sorFollowsItsCases : Obligations.SorFollowsItsCases := by
  intro s
  refine ⟨fun h => ?_, fun h he => ?_, fun h he hc => ?_, fun h he hc => ?_, exec_sor_of_unexpected⟩
  · rw [exec_sor_of_idle h, beginEvent_eq_butMarks]
    exact ⟨_, rfl, rfl⟩
  · rw [exec_sor_of_wr h, if_pos he]
  · rw [exec_sor_of_wr h, if_neg (by simp [he]), if_pos hc]
  · rw [exec_sor_of_wr h, if_neg (by simp [he]), if_neg hc]

end Sys2Proof.Proofs.Receive

/-! The transmit-side events (41_transmit.md): which branch AddressMatchRead, DataTransmittedAck and DataTransmittedNack
take in each state, and the state a pure read leaves. -/

namespace Sys2Proof.Proofs.Transmit

open Sys2Proof.Machine Sys2Proof.Stated Sys2Proof.Proofs.Receive

/-! ### AddressMatchRead, by state -/

/-- The complement of a byte is its distance from the largest one (00_scope.md R10). -/
theorem invertByte_eq (v : Byte) : invertByte v = 0xFF - v := (BitVec.allOnes_sub_eq_not v).symm

/-- In Idle the complement of the sampled port is stored at tx[0] and sent at once (43_dispatcher.md R180). -/
theorem exec_amr_of_idle {s : State} (h : s.state = .idle) :
    exec .amr s = .next { drew s with
      state := .rr, rxCount := 0, err := false, txLen := 1, txCount := 1,
      tx := s.tx.put 0 (0xFF - s.currentDraw.statusIn), rxWritten := [], txWritten := [0],
      txData := 0xFF - s.currentDraw.statusIn, txValid := true, ack := true, stop := false } := by
  simp only [exec, execAmr, State.beginEvent_state, h, pureRead_eq, orFault_ok, State.currentDraw_beginEvent,
    invertByte_eq]
  rw [startRead_of_get (v := 0xFF - s.currentDraw.statusIn) (by simp) (Memory.get_put_self _ _ _),
    s.beginEvent_of_idle h]
  rfl

/-- In WTRR the read of a process call starts with the bytes already prepared. -/
theorem exec_amr_of_wtrr {s : State} (h : s.state = .wtrr) : exec .amr s = startRead (acknowledged s) := by
  have hi : s.state ≠ .idle := by simp [h]
  simp only [exec, execAmr, beginEvent_eq_acknowledged hi, acknowledged_state, h]

/-- In WR and RR the start of a read is unexpected. -/
theorem exec_amr_of_unexpected {s : State} (h : s.state = .wr ∨ s.state = .rr) :
    exec .amr s = .next (abandoned s .unexpectedEvent true false) := by
  have hi : s.state ≠ .idle := by rcases h with h | h <;> simp [h]
  rw [← abandon_eq_abandoned hi]
  rcases h with h | h <;> simp only [exec, execAmr, State.beginEvent_state, h]

/-! ### DataTransmittedAck, exhaustion first -/

/-- The entry action makes the counters equal in Idle, and nowhere else changes them. -/
theorem beginEvent_txExhausted (s : State) :
    s.beginEvent.txExhausted = true ↔ s.state = .idle ∨ s.txCount = s.txLen := by
  by_cases h : s.state = .idle <;> simp [h]

/-- The test of the counters stands before that of the state (41_transmit.md R134). -/
theorem exec_dta_of_exhausted {s : State} (h : s.state = .idle ∨ s.txCount = s.txLen) :
    exec .dta s = .next ((s.beginEvent.abandon .txPastEnd).setAck false) :=
  if_pos ((beginEvent_txExhausted s).mpr h)

theorem exec_dta_of_rr {s : State} (h : s.state = .rr) (hn : s.txCount ≠ s.txLen) :
    exec .dta s = sendNext (acknowledged s) := by
  have hi : s.state ≠ .idle := by simp [h]
  have hx : ¬ s.beginEvent.txExhausted = true := (beginEvent_txExhausted s).not.mpr (not_or.mpr ⟨hi, hn⟩)
  rw [← beginEvent_eq_acknowledged hi]
  simp only [exec, execDta, if_neg hx, State.beginEvent_state, h]

/-- In WR and WTRR with bytes left an acknowledged byte is unexpected. -/
theorem exec_dta_of_unexpected {s : State} (h : s.state = .wr ∨ s.state = .wtrr) (hn : s.txCount ≠ s.txLen) :
    exec .dta s = .next (abandoned s .unexpectedEvent true false) := by
  have hi : s.state ≠ .idle := by rcases h with h | h <;> simp [h]
  have hx : ¬ s.beginEvent.txExhausted = true := (beginEvent_txExhausted s).not.mpr (not_or.mpr ⟨hi, hn⟩)
  rw [← abandon_eq_abandoned hi]
  rcases h with h | h <;> simp only [exec, execDta, if_neg hx, State.beginEvent_state, h]

/-! ### DataTransmittedNack, by state -/

/-- In RR the read ends, with an error if bytes are left. -/
theorem exec_dtn_of_rr {s : State} (h : s.state = .rr) :
    exec .dtn s =
      if s.txCount = s.txLen then .next { acknowledged s with state := .idle }
      else .next (abandoned s .txPrematureNack true false) := by
  have hi : s.state ≠ .idle := by simp [h]
  simp only [exec, execDtn, beginEvent_eq_acknowledged hi, acknowledged_state, h, State.txExhausted_eq,
    decide_eq_true_eq, abandoned, afterEntry_of_ne_idle hi]
  rfl

theorem exec_dtn_of_ne_rr {s : State} (h : s.state ≠ .rr) :
    exec .dtn s = .next ((s.beginEvent.abandon .unexpectedEvent).setAck true) := by
  cases hs : s.state with
  | rr => exact absurd hs h
  | idle | wr | wtrr => simp only [exec, execDtn, State.beginEvent_state, hs]

/-! ### The obligations -/

/-- Settles O20, state by state: in Idle tx is one `Memory.put`, and in WTRR the prepared byte is read back. -/
theorem amrStartsARead : Obligations.AmrStartsARead := by
  refine fun s => ⟨fun h => ?_, fun v h hw hv => ?_, exec_amr_of_unexpected⟩
  · exact ⟨_, exec_amr_of_idle h, Memory.get_put_self _ _ _, fun _ ha => Memory.get_put_ne _ _ ha, rfl⟩
  · exact (exec_amr_of_wtrr h).trans (startRead_of_get hw hv)

/-- Settles O21: past the end it is the abandonment of every state, and with bytes left the state decides. -/
theorem dtaSendsOrAbandons : Obligations.DtaSendsOrAbandons := by
  refine fun s => ⟨fun h => ?_, fun v h hn hc hw hv => ?_, exec_dta_of_unexpected⟩
  · rw [exec_dta_of_exhausted h]
    exact abandon_answersButMarks s .txPastEnd false
  · exact (exec_dta_of_rr h hn).trans (sendNext_of_get hc hw hv)

/-- Settles O22; in RR each case picks its branch of `exec_dtn_of_rr`. -/
theorem dtnEndsARead : Obligations.DtnEndsARead := by
  refine fun s => ⟨fun h hn => ?_, fun h hn => ?_, fun h => ?_⟩
  · rw [exec_dtn_of_rr h, if_pos hn]
  · rw [exec_dtn_of_rr h, if_neg hn]
  · rw [exec_dtn_of_ne_rr h]
    exact abandon_answersButMarks s .unexpectedEvent true

/-- Settles O23: no state is looked at, and what is left is the abandonment. -/
theorem ldtauAbandonsAlways : Obligations.LdtauAbandonsAlways :=
  fun s => abandon_answersButMarks s .txLastUnexpected true

end Sys2Proof.Proofs.Transmit

/-! The error events (42_error_events.md): an abandonment that also asks for a stop, and the two events that abandon
whatever the state. -/

namespace Sys2Proof.Proofs.ErrorEvents

open Sys2Proof.Machine Sys2Proof.Stated Sys2Proof.Proofs.Encoding Sys2Proof.Proofs.Receive

/-- A stop emitted before the abandonment lasts to the end of the step, and the rest is the abandoned state, but for
the marks (42_error_events.md R150). -/
theorem emitStop_abandon_answersButMarks (s : State) (c : Cause) (ack : Bool) :
    AnswersButMarks (.next ((s.beginEvent.emitStop.abandon c).setAck ack)) (abandoned s c ack true) := by
  rw [beginEvent_eq_butMarks, abandoned, ← afterEntry_trace s]
  exact ⟨_, rfl, rfl⟩

/-- Settles O24: the stop comes before the abandonment, which leaves it asserted. -/
theorem busErrorStopsAndAbandons : Obligations.BusErrorStopsAndAbandons :=
  fun s => emitStop_abandon_answersButMarks s .busError true

/-- Settles O25: Unrecognized is the abandonment of every state, and a reserved tag runs as Unrecognized does. -/
theorem unrecognizedAbandonsAlways : Obligations.UnrecognizedAbandonsAlways := by
  intro s
  have hunr : AnswersButMarks (exec .unr s) (abandoned s .unrecognized true false) :=
    abandon_answersButMarks s .unrecognized true
  refine ⟨hunr, fun low => ?_, fun low => ?_⟩
  · rwa [exec_unrRsvAB low]
  · rwa [exec_unrRsvCF low]

end Sys2Proof.Proofs.ErrorEvents

/-! The dispatcher (43_dispatcher.md): the StopOrRestart of a complete message is the dispatcher's run of it, with the
answer its entry's handler gives, and what each answer leaves. -/

namespace Sys2Proof.Proofs.Dispatcher

open Sys2Proof.Machine Sys2Proof.Stated Sys2Proof.Proofs.Receive

/-! ### The handler's answer -/

/-- The answer the dispatcher acts on is the one the statements name (44_commands.md R191, R195). -/
theorem entryAnswer_eq_answerOf (e : Entry) (code : Byte) (args : List Byte) (s : State) :
    entryAnswer e code args s = answerOf s code args e := by
  cases e with
  | default c => cases c <;> rfl
  | external n => rfl

/-- A handler does not see the outputs, so their defaults leave its answer as it was (44_commands.md R193). -/
theorem answerOf_acknowledged (s : State) (code : Byte) (args : List Byte) (e : Entry) :
    answerOf (acknowledged s) code args e = answerOf s code args e := by
  cases e with
  | default c => cases c <;> rfl
  | external n => rfl

/-! ### StopOrRestart on a complete message -/

theorem rxCount_of_message {s : State} {code : Byte} {args : List Byte} (hm : CompletesMessage s code args) :
    s.rxCount = args.length + 1 := by
  obtain ⟨-, -, hc, -, -⟩ := hm
  exact hc

/-- The StopOrRestart of a complete message dispatches it (43_dispatcher.md R170). -/
theorem exec_sor_of_message {s : State} {code : Byte} {args : List Byte} (hm : CompletesMessage s code args) :
    exec .sor s = dispatchMessage code args (acknowledged s) := by
  obtain ⟨hs, he, hc, hl, hb⟩ := hm
  rw [exec_sor_of_wr hs, if_neg (by simp [he]), if_neg (by omega)]
  exact writeComplete_of_message hc hl hb

/-- A message whose code has an entry is one checked call of that entry's handler. -/
theorem exec_sor_of_entry {s : State} {code : Byte} {args : List Byte} {e : Entry}
    (hm : CompletesMessage s code args) (hl : s.config.lookup code = some e) :
    exec .sor s = checkedCall e.declaredLength code args (answerOf s code args e) (acknowledged s) := by
  rw [exec_sor_of_message hm, dispatchMessage_of_some args (s := acknowledged s) hl, entryAnswer_eq_answerOf,
    answerOf_acknowledged]

/-- A message of the declared length whose handler returns ends as the handler's answer says, one draw used. -/
theorem exec_sor_of_answer {s : State} {code : Byte} {args : List Byte} {e : Entry} {r : HandlerResult}
    (hm : CompletesMessage s code args) (hl : s.config.lookup code = some e) (hn : s.rxCount = e.declaredLength)
    (hr : (replyOf s code args).returns = true) (ha : answerOf s code args e = r) :
    exec .sor s = finishCall code args r (acknowledged s).takeDraw := by
  rw [rxCount_of_message hm] at hn
  rw [exec_sor_of_entry hm hl, ha]
  exact checkedCall_right code r hn hr

/-! ### The obligations -/

/-- Settles O26: the lookup fails before any call. -/
theorem unknownCommandSetsErr : Obligations.UnknownCommandSetsErr :=
  fun _ _ args hm hl => (exec_sor_of_message hm).trans (dispatchMessage_of_none args hl)

/-- Settles O27: the length check of the checked call fails. -/
theorem wrongLengthSetsErr : Obligations.WrongLengthSetsErr := by
  intro s code args e hm hl hn
  rw [rxCount_of_message hm] at hn
  exact (exec_sor_of_entry hm hl).trans (checkedCall_wrong code _ _ hn)

/-- Settles O28: the abandonment after the draw is the rejected state. -/
theorem rejectedMessageSetsErr : Obligations.RejectedMessageSetsErr :=
  fun _ code args _ hm hl hn hr ha => (exec_sor_of_answer hm hl hn hr ha).trans (finishCall_reject code args _)

/-- Settles O29: the response is written with `Memory.putList`, whose reads give tx index by index. -/
theorem responseArmsTheRead : Obligations.ResponseArmsTheRead := by
  intro s code args e b hm hl hn hr ha h1 h2
  refine ⟨respondedState code args b (acknowledged s).takeDraw, ?_, rfl, fun k hk => ?_, fun k hk => ?_⟩
  · exact (exec_sor_of_answer hm hl hn hr ha).trans (finishCall_respond_fits code args _ h1 h2)
  · exact (Memory.get_putList s.tx 0 k b).trans (if_pos (by omega))
  · exact (Memory.get_putList s.tx 0 k b).trans (if_neg (by omega))

/-- Settles O30: an empty response ends in the same state as Done. -/
theorem doneOrEmptyResponseEndsInIdle : Obligations.DoneOrEmptyResponseEndsInIdle := by
  intro s code args e hm hl hn hr ha
  rcases ha with ha | ha
  · exact (exec_sor_of_answer hm hl hn hr ha).trans (finishCall_done code args _)
  · exact (exec_sor_of_answer hm hl hn hr ha).trans (finishCall_respond_nil code args _)

/-- Settles O31: the response does not fit tx, and nothing of it is copied. -/
theorem overlongResponseIsRefused : Obligations.OverlongResponseIsRefused :=
  fun _ code args _ _ hm hl hn hr ha h =>
    (exec_sor_of_answer hm hl hn hr ha).trans (finishCall_respond_over code args _ h)

end Sys2Proof.Proofs.Dispatcher

/-! The two directions of the codec (30_encoding.md sections 1 to 4; 44_commands.md section 2): what an encoded
instruction decodes to, what the decoder accepts, the raw statuses, and the default table. -/

namespace Sys2Proof.Proofs.Decoding

open Sys2Proof.Machine Sys2Proof.Stated Sys2Proof.Laws Sys2Proof.Laws.RoundTrip Sys2Proof.Proofs.Encoding

/-! ### Event words and foreground ops -/

/-- Away from tags 1 and 2 a word decodes as the word of its tag with data 0 (30_encoding.md R72). -/
theorem decodeEvent_eventWord_of_tag {tag : BitVec 4} {i : Instr} (d : Byte) (h1 : tag ≠ 0x1) (h2 : tag ≠ 0x2)
    (h : decodeEvent (eventWord tag 0) = i) : decodeEvent (eventWord tag d) = i := by
  rw [← h]
  apply decodeEvent_eq_of_eventTag_eq <;> simp only [eventTag_eventWord]
  · exact h1
  · exact h2

/-- An instruction of the kind of a bus event is no command. -/
theorem commandParts_of_eventKind {i : Instr} {e : BusEvent} (h : eventKind i = some e) : i.commandParts = none := by
  cases i with
  | amw | dra | drn | sor | amr | dta | dtn | ldtau | be | unr | unrRsvAB | unrRsvCF => rfl
  | _ => cases h

theorem commandParts_decodeEvent (w : EventWord) : (decodeEvent w).commandParts = none := by
  obtain ⟨e, he⟩ := exists_eventKind_decodeEvent w
  exact commandParts_of_eventKind he

theorem commandParts_decodeForeground : ∀ op : FgOp, (decodeForeground op).commandParts = none := by decide

theorem encode_decodeForeground : ∀ op : FgOp, encode (decodeForeground op) = .foreground op := by decide

/-- No input stands for a command: a command runs inside the StopOrRestart of its message (43_dispatcher.md R170). -/
theorem commandParts_decodeInput (cfg : Config) (x : Input) : (decodeInput cfg x).commandParts = none := by
  cases x with
  | event w => exact commandParts_decodeEvent w
  | raw status data => exact commandParts_decodeEvent _
  | foreground op => exact commandParts_decodeForeground op

theorem wf_of_commandParts_none {i : Instr} (cfg : Config) (h : i.commandParts = none) : i.wf cfg = true := by
  simp [Instr.wf, h]

/-! ### Messages -/

/-- The decoder of messages answers a command exactly when the table binds the code to it and the length is the declared
one (43_dispatcher.md R171 to R173). -/
theorem decodeMessage_eq_ok {cfg : Config} {code : Byte} {args : List Byte} {i : Instr} :
    decodeMessage cfg (code :: args) = .ok i ↔
      ∃ c, cfg.lookup code = some (.default c) ∧ args.length + 1 = c.declaredLength ∧ i = c.toInstr code args := by
  cases hl : cfg.lookup code with
  | none => simp [decodeMessage, hl]
  | some e =>
    cases e with
    | external n => simp [decodeMessage, hl]
    | default c =>
      by_cases hn : args.length + 1 = c.declaredLength
      · simp [decodeMessage, hl, hn, eq_comm]
      · simp only [decodeMessage, hl, if_neg hn, reduceCtorEq, false_iff, not_exists]
        rintro c' ⟨hc, hn', -⟩
        cases hc
        exact hn hn'

theorem encode_toInstr (c : Command) (code : Byte) (args : List Byte) :
    encode (c.toInstr code args) = .message (code :: args) := by
  cases c <;> rfl

/-- A command instruction is well formed exactly when the table binds its code and the length is the declared one. -/
theorem wf_toInstr {cfg : Config} {c : Command} {code : Byte} {args : List Byte} :
    (c.toInstr code args).wf cfg = true ↔
      cfg.lookup code = some (.default c) ∧ args.length + 1 = c.declaredLength := by
  simp [Instr.wf]

/-! ### Raw statuses -/

theorem lookupFirst_eq_none {α : Type} {k : Byte} {l : List (Byte × α)} (h : ∀ p ∈ l, p.1 ≠ k) :
    lookupFirst k l = none := by
  induction l with
  | nil => rfl
  | cons p rest ih =>
    obtain ⟨hp, hrest⟩ := List.forall_mem_cons.mp h
    exact (if_neg hp).trans (ih hrest)

/-- A status in no pair of the map is Unrecognized (30_encoding.md R76). -/
theorem statusDecode_of_unmapped {cfg : Config} {status : Byte} (h : ∀ p ∈ cfg.statusMap, p.1 ≠ status) :
    cfg.statusDecode status = .unrecognized := by
  rw [Config.statusDecode, lookupFirst_eq_none h]

/-- A raw status decodes as the event word of its event with the data register (30_encoding.md R75, R76). -/
theorem decodeInput_raw {cfg : Config} {status : Byte} {e : BusEvent} (data : Byte) (h : cfg.statusDecode status = e) :
    decodeInput cfg (.raw status data) = decodeEvent (eventWord e.tag data) := by
  rw [← h]
  rfl

/-- Under the default binding the status map alone decides what a status stands for. -/
theorem statusDecode_of_default {cfg : Config} (h : cfg.statusMap = defaultStatusMap) (status : Byte) :
    cfg.statusDecode status = testConfig.statusDecode status := by
  rw [Config.statusDecode, h]
  rfl

/-! ### The default table -/

/-- The commands in the order of the default table (44_commands.md R195). -/
def commandList : List Command :=
  [.identify, .setMotorType, .setTimerDivider, .enableOutputs, .disableOutputs, .setSpeed, .setDirection,
   .setStepCount, .stepForward, .stepBackward, .stepsForward, .stepsBackward, .stepSpeed, .stepRemaining, .stepRelease]

theorem defaultTable_eq (code : Command → Byte) :
    defaultTable code = commandList.map fun c => (code c, Entry.default c) := rfl

theorem mem_commandList (c : Command) : c ∈ commandList := by
  cases c <;> decide

theorem nodup_commandList : commandList.Nodup := by decide

/-- Under distinct codes the first pair with a command's code is the command's own. -/
theorem lookupFirst_map_of_mem {code : Command → Byte} (hinj : ∀ c c', code c = code c' → c = c') {c : Command}
    {l : List Command} (hc : c ∈ l) :
    lookupFirst (code c) (l.map fun c => (code c, Entry.default c)) = some (.default c) := by
  induction l with
  | nil => cases hc
  | cons a rest ih =>
    by_cases ha : a = c
    · subst ha
      exact if_pos rfl
    · have hrest : c ∈ rest := (List.mem_cons.mp hc).resolve_left (Ne.symm ha)
      exact (if_neg fun h => ha (hinj a c h)).trans (ih hrest)

theorem lookup_defaultTable {code : Command → Byte} {cfg : Config} (hinj : ∀ c c', code c = code c' → c = c')
    (ht : cfg.table = defaultTable code) (c : Command) : cfg.lookup (code c) = some (.default c) := by
  rw [Config.lookup, ht, defaultTable_eq]
  exact lookupFirst_map_of_mem hinj (mem_commandList c)

theorem lookup_defaultTable_eq_none {code : Command → Byte} {cfg : Config} (ht : cfg.table = defaultTable code)
    {b : Byte} (h : ∀ c, code c ≠ b) : cfg.lookup b = none := by
  rw [Config.lookup, ht, defaultTable_eq]
  refine lookupFirst_eq_none fun p hp => ?_
  obtain ⟨c, -, rfl⟩ := List.mem_map.mp hp
  exact h c

theorem entryWf_default (c : Command) : (Entry.default c).wf = true := by
  cases c <;> decide

/-- Under distinct codes the default table is well formed (00_scope.md R8). -/
theorem wf_defaultTable {code : Command → Byte} {cfg : Config} (hinj : ∀ c c', code c = code c' → c = c')
    (ht : cfg.table = defaultTable code) : cfg.wf = true := by
  have hnodup : (commandList.map code).Nodup := nodup_commandList.map fun c c' => hinj c c'
  have hall : (commandList.map fun c => (code c, Entry.default c)).all (fun p => p.2.wf) = true := by
    simp only [List.all_map, List.all_eq_true]
    exact fun c _ => entryWf_default c
  rw [Config.wf, ht, defaultTable_eq, hall, Bool.and_true, decide_eq_true_eq, List.map_map]
  exact hnodup

/-! ### The obligations -/

/-- Settles O1, instruction by instruction; every command is the decoder's answer to a well-formed message. -/
theorem decodeOfEncodeIsIdentity : Obligations.DecodeOfEncodeIsIdentity := by
  intro cfg i h
  cases i with
  | amw => exact RoundTrip.amw cfg h
  | dra d => exact RoundTrip.dra d cfg h
  | drn d => exact RoundTrip.drn d cfg h
  | sor => exact RoundTrip.sor cfg h
  | amr => exact RoundTrip.amr cfg h
  | dta => exact RoundTrip.dta cfg h
  | dtn => exact RoundTrip.dtn cfg h
  | ldtau => exact RoundTrip.ldtau cfg h
  | be => exact RoundTrip.be cfg h
  | unr => exact RoundTrip.unr cfg h
  | unrRsvAB low => exact RoundTrip.unrRsvAB low cfg h
  | unrRsvCF low => exact RoundTrip.unrRsvCF low cfg h
  | fgInit => exact RoundTrip.fgInit cfg h
  | fgEnable => exact RoundTrip.fgEnable cfg h
  | fgDisable => exact RoundTrip.fgDisable cfg h
  | fgReadErr => exact RoundTrip.fgReadErr cfg h
  | cmdIdentify | cmdSetMotorType | cmdSetTimerDivider | cmdEnableOutputs | cmdDisableOutputs | cmdSetSpeed
  | cmdSetDirection | cmdSetStepCount | cmdStepForward | cmdStepBackward | cmdStepsForward | cmdStepsBackward
  | cmdStepSpeed | cmdStepRemaining | cmdStepRelease => exact decodeMessage_of_wf h

/-- Settles O6, format by format: an event word and an op decode to no command, and a message to the command whose
encoding it is. -/
theorem decodedTermsAreWellFormed : Obligations.DecodedTermsAreWellFormed := by
  intro cfg e i h
  cases e with
  | event w =>
    cases h
    exact ⟨wf_of_commandParts_none cfg (commandParts_decodeEvent w), .inl ⟨w, rfl⟩⟩
  | foreground op =>
    cases h
    exact ⟨wf_of_commandParts_none cfg (commandParts_decodeForeground op), .inr (encode_decodeForeground op)⟩
  | message bytes =>
    cases bytes with
    | nil => cases h
    | cons code args =>
      obtain ⟨c, hl, hn, rfl⟩ := decodeMessage_eq_ok.mp h
      exact ⟨wf_toInstr.mpr ⟨hl, hn⟩, .inr (encode_toInstr c code args)⟩

/-- Settles O2: tags 1 and 2 carry the data byte, and every other tag decides alone. -/
theorem eventTagTable : Obligations.EventTagTable := by
  intro d
  have byTag {tag : BitVec 4} {i : Instr} (h1 : tag ≠ 0x1) (h2 : tag ≠ 0x2)
      (h : decodeEvent (eventWord tag 0) = i) : decodeEvent (eventWord tag d) = i :=
    decodeEvent_eventWord_of_tag d h1 h2 h
  exact ⟨byTag (by decide) (by decide) rfl, decodeEvent_eventWord_one d, decodeEvent_eventWord_two d,
    byTag (by decide) (by decide) rfl, byTag (by decide) (by decide) rfl, byTag (by decide) (by decide) rfl,
    byTag (by decide) (by decide) rfl, byTag (by decide) (by decide) rfl, byTag (by decide) (by decide) rfl,
    byTag (by decide) (by decide) rfl, byTag (by decide) (by decide) rfl, byTag (by decide) (by decide) rfl,
    byTag (by decide) (by decide) rfl, byTag (by decide) (by decide) rfl, byTag (by decide) (by decide) rfl,
    byTag (by decide) (by decide) rfl⟩

/-- Settles O5: the decoder evaluated on the written-out words. -/
theorem writtenOutWordsDecode : Obligations.WrittenOutWordsDecode := by
  unfold Obligations.WrittenOutWordsDecode
  exact ⟨by decide, by decide, by decide, by decide, by decide, by decide, rfl⟩

/-- Settles O7: a status decodes as the word of its event, and the tag table says which instruction that word is. -/
theorem rawStatusIsTranslatedOnce : Obligations.RawStatusIsTranslatedOnce := by
  refine ⟨fun cfg status data => ⟨rfl, fun h => ?_⟩, fun cfg data h => ?_⟩
  · rw [decodeInput_raw data (statusDecode_of_unmapped h)]
    exact decodeEvent_eventWord_of_tag data (by decide) (by decide) rfl
  · have raw {status : Byte} {e : BusEvent} {i : Instr} (he : testConfig.statusDecode status = e)
        (hi : decodeEvent (eventWord e.tag data) = i) : decodeInput cfg (.raw status data) = i :=
      (decodeInput_raw data ((statusDecode_of_default h status).trans he)).trans hi
    obtain ⟨hamw, hdra, hdrn, hsor, hamr, hdta, hdtn, hldtau, hbe, hunr, -⟩ := eventTagTable data
    exact ⟨raw rfl hamw, raw rfl hdra, raw rfl hdrn, raw rfl hsor, raw rfl hamr, raw rfl hdta, raw rfl hdtn,
      raw rfl hldtau, raw rfl hbe, raw rfl hunr, raw rfl hunr⟩

/-- Settles O8: distinct codes make the table's keys distinct, and the lengths are those of `Command.declaredLength`. -/
theorem defaultTableBindsTheCommands : Obligations.DefaultTableBindsTheCommands := by
  intro code cfg hinj ht
  exact ⟨lookup_defaultTable hinj ht, fun _ => lookup_defaultTable_eq_none ht, wf_defaultTable hinj ht,
    rfl, rfl, rfl, rfl, rfl, rfl, rfl, rfl, rfl, rfl, rfl, rfl, rfl, rfl, rfl⟩

end Sys2Proof.Proofs.Decoding

/-! The invariants of 10_state.md R34: every way a step goes on keeps them, and under them every buffer access of a step
finds its byte. -/

namespace Sys2Proof.Proofs.Invariants

open Sys2Proof.Machine Sys2Proof.Stated Sys2Proof.Proofs.Decoding Sys2Proof.Proofs.Receive Sys2Proof.Proofs.Transmit

/-! ### The step and its input -/

theorem step_of_nil {s : State} (h : s.inputs = []) : step s = .next s := by
  rw [step, h]

theorem step_of_cons {s : State} {x : Input} {rest : List Input} (h : s.inputs = x :: rest) :
    step s = exec (decodeInput s.config x) { s with inputs := rest } := by
  rw [step, h]

/-! ### Which bytes the current transaction holds after a write -/

/-- A stored byte extends the bytes that RXCOUNT counts by one (40_receive.md R110). -/
theorem holdsByte_of_store {s : State} (d : Byte) (hc : s.rxCount < 34)
    (h : ∀ k, k < s.rxCount → s.holdsByte .rx k = true) {k : Nat} (hk : k < s.rxCount + 1) :
    State.holdsByte { s with
      rx := s.rx.put s.rxCount d, rxWritten := s.rxWritten.insert s.rxCount } .rx k = true := by
  refine (memWrite_holdsByte (b := .rx) (memWrite_of_lt d s hc)).mpr ?_
  rcases Nat.lt_succ_iff_lt_or_eq.mp hk with hlt | heq
  · exact .inr (h k hlt)
  · exact .inl ⟨rfl, heq⟩

/-- Every byte of a response is one of the current transaction (43_dispatcher.md R175). -/
theorem holdsByte_respondedState (code : Byte) (args b : List Byte) (s : State) {k : Nat} (hk : k < b.length) :
    (respondedState code args b s).holdsByte .tx k = true := by
  have hget : (s.tx.putList 0 b).get k = b[k]? := (Memory.get_putList s.tx 0 k b).trans (if_pos (by omega))
  refine State.holdsByte_iff.mpr ⟨mem_markRange.mpr (.inl (by omega)), ?_⟩
  change ((s.tx.putList 0 b).get k).isSome = true
  simp [hget, hk]

/-! ### What the invariants give -/

/-- A transaction open for received bytes is not in Idle. -/
theorem ne_idle_of_open {s : State} (h : s.state = .wr ∨ s.state = .wtrr) : s.state ≠ .idle := by
  rcases h with h | h <;> simp [h]

theorem buffersCanonical_of_inv {s : State} (h : s.Inv) : s.BuffersCanonical := by
  obtain ⟨-, -, -, -, hbuf⟩ := h
  exact hbuf

theorem txCount_le_of_inv {s : State} (h : s.Inv) : s.txCount ≤ s.txLen := by
  obtain ⟨⟨-, htc, -⟩, -⟩ := h
  exact htc

/-- I3: a response is not empty (10_state.md R34). -/
theorem txLen_pos_of_wtrr {s : State} (h : s.Inv) (hs : s.state = .wtrr) : 1 ≤ s.txLen := by
  obtain ⟨-, ⟨-, hwtrr, -⟩, -⟩ := h
  obtain ⟨h1, -⟩ := hwtrr hs
  exact h1

/-! ### The invariants in Idle -/

/-- In Idle the invariants say no more than the counters' ranges and the buffers' form. -/
theorem inv_of_idle {s : State} (hs : s.state = .idle) (hc : s.CountersInRange) (hb : s.BuffersCanonical) : s.Inv :=
  ⟨hc, by simp [State.CountersMatchState, hs], by simp [State.ErrMeansOverflow, hs],
    by simp [State.BytesWritten, State.ReceivedBytesWritten, State.PreparedBytesWritten, hs], hb⟩

theorem beginEvent_countersInRange {s : State} (h : s.CountersInRange) : s.beginEvent.CountersInRange := by
  by_cases hs : s.state = .idle
  · simp [State.CountersInRange, hs]
  · simpa [State.CountersInRange, hs] using h

theorem beginEvent_buffersCanonical {s : State} (h : s.BuffersCanonical) : s.beginEvent.BuffersCanonical := by
  simpa [State.BuffersCanonical] using h

/-- Whatever ends in Idle with the counters and buffers of the step's start meets the invariants. -/
theorem inv_of_ended {s t : State} (h : s.Inv) (ht : t.state = .idle) (hrc : t.rxCount = s.beginEvent.rxCount)
    (htl : t.txLen = s.beginEvent.txLen) (htc : t.txCount = s.beginEvent.txCount) (hrx : t.rx = s.beginEvent.rx)
    (htx : t.tx = s.beginEvent.tx) : t.Inv := by
  obtain ⟨hcount, -, -, -, hbuf⟩ := h
  have hcount' := beginEvent_countersInRange hcount
  have hbuf' := beginEvent_buffersCanonical hbuf
  rw [State.CountersInRange, ← hrc, ← htl, ← htc] at hcount'
  rw [State.BuffersCanonical, ← hrx, ← htx] at hbuf'
  exact inv_of_idle ht hcount' hbuf'

/-! ### Each way to go on -/

/-- AddressMatchWrite starts from cleared counters. -/
theorem inv_of_cleared_wr {t : State} (hb : t.BuffersCanonical) (ht : t.state = .wr) (hrc : t.rxCount = 0)
    (htl : t.txLen = 0) (htc : t.txCount = 0) (he : t.err = false) (htw : t.txWritten = []) : t.Inv :=
  ⟨by simp [State.CountersInRange, hrc, htl, htc], by simp [State.CountersMatchState, ht, htl, htc],
    by simp [State.ErrMeansOverflow, he],
    by simp [State.BytesWritten, State.ReceivedBytesWritten, State.PreparedBytesWritten, ht, hrc, htw], hb⟩

/-- A stored byte keeps the invariants: with room left in rx, ERR is 0 (10_state.md R34, I5). -/
theorem inv_of_store {s t : State} (d : Byte) (h : s.Inv) (hs : s.state = .wr ∨ s.state = .wtrr) (hc : s.rxCount < 34)
    (ht : t = { s with
      rx := s.rx.put s.rxCount d, rxWritten := s.rxWritten.insert s.rxCount, rxCount := s.rxCount + 1,
      ack := t.ack, txValid := t.txValid, stop := t.stop }) : t.Inv := by
  obtain ⟨⟨-, htc, htl⟩, ⟨hwr, hwtrr, hrr⟩, herr, ⟨hrx, htx⟩, hbrx, hbtx⟩ := h
  have hi := ne_idle_of_open hs
  rw [ht]
  refine ⟨⟨hc, htc, htl⟩, ⟨hwr, fun h => ?_, hrr⟩, fun he _ => ?_, ⟨fun _ k hk => ?_, htx⟩, ?_, hbtx⟩
  · obtain ⟨h1, h2, h3, -⟩ := hwtrr h
    exact ⟨h1, h2, h3, Nat.succ_le_succ (Nat.zero_le _)⟩
  · exact absurd (herr he hi) (by omega)
  · exact holdsByte_of_store d hc (hrx hi) hk
  · exact Memory.wf_put s.rx d hbrx hc

/-- The overflow keeps the invariants: rx is full, which is what ERR then means (10_state.md R34, I5). -/
theorem inv_of_overflow {s t : State} (h : s.Inv) (hc : 34 ≤ s.rxCount)
    (ht : t = { s with err := true, ack := t.ack, txValid := t.txValid, stop := t.stop, trace := t.trace }) :
    t.Inv := by
  obtain ⟨⟨hrc, htc, htl⟩, hmatch, -, hbytes, hbuf⟩ := h
  rw [ht]
  exact ⟨⟨hrc, htc, htl⟩, hmatch, fun _ _ => Nat.le_antisymm hrc hc, hbytes, hbuf⟩

/-- The dispatch of a complete message keeps the invariants, a response being written whole. -/
theorem inv_of_dispatchEnd {s t : State} (hd : DispatchEnd s t) (h : s.Inv) (hs : s.state = .wr) (he : s.err = false)
    (hc : s.rxCount ≠ 0) : t.Inv := by
  obtain ⟨hcount, -, -, ⟨hrx, -⟩, hbrx, hbtx⟩ := h
  cases hd with
  | abandons c _ => exact inv_of_idle rfl hcount ⟨hbrx, hbtx⟩
  | rejects => exact inv_of_idle rfl hcount ⟨hbrx, hbtx⟩
  | completes code args => exact inv_of_idle rfl hcount ⟨hbrx, hbtx⟩
  | responds code args b h1 h2 =>
    obtain ⟨hrc, -, -⟩ := hcount
    have hi : s.state ≠ .idle := by simp [hs]
    refine ⟨⟨hrc, Nat.zero_le _, h2⟩, ⟨nofun, fun _ => ⟨h1, h2, rfl, Nat.pos_of_ne_zero hc⟩, nofun⟩, ?_,
      ⟨fun _ => hrx hi, nofun, fun _ k hk => ?_⟩, hbrx, ?_⟩
    · intro he'
      exact absurd (he.symm.trans he') (by decide)
    · exact holdsByte_respondedState code args b s.takeDraw hk
    · exact Memory.wf_putList s.tx b hbtx (by simpa [Config.txCap] using h2)

/-- A pure read keeps the invariants: its one byte is written before it is sent (43_dispatcher.md R180). -/
theorem inv_of_pureRead {s t : State} (v : Byte) (hb : s.BuffersCanonical) (ht : t.state = .rr) (hrc : t.rxCount = 0)
    (htl : t.txLen = 1) (htc : t.txCount = 1) (he : t.err = false) (hrx : t.rx = s.rx) (htx : t.tx = s.tx.put 0 v)
    (htw : t.txWritten = [0]) : t.Inv := by
  have hold : t.holdsByte .tx 0 = true := by
    simp [State.holdsByte_iff, htw, htx, Memory.get_put_self]
  refine ⟨by simp [State.CountersInRange, hrc, htl, htc], by simp [State.CountersMatchState, ht, htl, htc],
    by simp [State.ErrMeansOverflow, he],
    ⟨by simp [State.ReceivedBytesWritten, hrc], by simp [ht], fun _ k hk => ?_⟩, ?_⟩
  · obtain rfl : k = 0 := by omega
    exact hold
  · obtain ⟨hbrx, hbtx⟩ := hb
    exact ⟨hrx ▸ hbrx, htx ▸ Memory.wf_put s.tx v hbtx (by decide)⟩

/-- A byte sent in the state RR keeps the invariants, TXCOUNT staying within TXLEN. -/
theorem inv_of_sent {s t : State} (n : Nat) (h : s.Inv) (hs : s.state = .wtrr ∨ s.state = .rr) (h1 : 1 ≤ n)
    (hn : n ≤ s.txLen)
    (ht : t = { s with
      state := .rr, txCount := n, txData := t.txData, txValid := t.txValid, ack := t.ack, stop := t.stop }) :
    t.Inv := by
  obtain ⟨⟨hrc, -, htl⟩, -, herr, ⟨hrx, -, htx⟩, hbuf⟩ := h
  have hi : s.state ≠ .idle := by rcases hs with hs | hs <;> simp [hs]
  rw [ht]
  exact ⟨⟨hrc, hn, htl⟩, ⟨nofun, nofun, fun _ => ⟨h1, hn⟩⟩, fun he _ => herr he hi,
    ⟨fun _ => hrx hi, nofun, fun _ => htx hs⟩, hbuf⟩

/-- Every way to go on but a command's keeps the invariants. -/
theorem inv_of_goes {i : Instr} {s t : State} (hg : Goes i s t) (hi : i.commandParts = none) (h : s.Inv) : t.Inv := by
  cases hg with
  | amw => exact inv_of_cleared_wr (buffersCanonical_of_inv (s := s) h) rfl rfl rfl rfl rfl rfl
  | stores d _ hs hc => exact inv_of_store d h hs hc rfl
  | overflows d _ _ hc => exact inv_of_overflow h hc rfl
  | abandons _ _ c => exact inv_of_ended h rfl rfl rfl rfl rfl rfl
  | pastEnd => exact inv_of_ended h rfl rfl rfl rfl rfl rfl
  | busError => exact inv_of_ended h rfl rfl rfl rfl rfl rfl
  | sorIdle _ hs => exact inv_of_ended h (s.beginEvent_state.trans hs) rfl rfl rfl rfl rfl
  | sorOverflowed => exact inv_of_ended h rfl rfl rfl rfl rfl rfl
  | sorDispatches _ _ hs he hc hd =>
    rw [beginEvent_eq_acknowledged (by simp [hs])] at hd
    exact inv_of_dispatchEnd hd h hs he hc
  | pureRead _ hs =>
    exact inv_of_pureRead (s := s) _ (buffersCanonical_of_inv h) rfl (by simp [hs]) rfl rfl (by simp [hs]) (by simp)
      rfl rfl
  | startsRead _ v hs => exact inv_of_sent 1 h (.inl hs) Nat.le.refl (txLen_pos_of_wtrr h hs) rfl
  | sends _ v hs hn =>
    have hlt : s.txCount < s.txLen := Nat.lt_of_le_of_ne (txCount_le_of_inv h) hn
    exact inv_of_sent (s.txCount + 1) h (.inr hs) (Nat.succ_le_succ (Nat.zero_le _)) hlt (by rw [← hs])
  | endsRead => exact inv_of_ended h rfl rfl rfl rfl rfl rfl
  | fgInit => exact inv_of_idle rfl (by simp [State.CountersInRange]) reset_buffers_wf
  | fgEnable => exact h
  | fgDisable => exact h
  | fgReadErr => exact h
  | command _ _ _ hi' => simp [hi] at hi'

/-! ### Every access finds its byte -/

theorem safeOutcome_checkedCall (n : Nat) (code : Byte) (args : List Byte) (r : HandlerResult) (s : State) :
    safeOutcome (checkedCall n code args r s) = true := by
  rcases checkedCall_cases n code args r s with h | h | h | ⟨b, -, -, -, h⟩ | h | ⟨k, h⟩ <;> rw [h] <;> rfl

theorem safeOutcome_dispatchMessage (code : Byte) (args : List Byte) (s : State) :
    safeOutcome (dispatchMessage code args s) = true := by
  cases hl : s.config.lookup code with
  | none => rw [dispatchMessage_of_none args hl]; rfl
  | some e => rw [dispatchMessage_of_some args hl]; exact safeOutcome_checkedCall ..

/-- A received byte always finds room or overflows. -/
theorem safeOutcome_receiveByte (d : Byte) (s : State) : safeOutcome (receiveByte d s) = true := by
  by_cases hc : s.rxCount < 34
  · rw [receiveByte_stores d hc]; rfl
  · rw [receiveByte_overflows d (by omega)]; rfl

theorem safeOutcome_dra (d : Byte) (s : State) : safeOutcome (exec (.dra d) s) = true := by
  cases hs : s.state with
  | wr => rw [exec_dra_of_open d (.inl hs)]; exact safeOutcome_receiveByte d _
  | wtrr => rw [exec_dra_of_open d (.inr hs)]; exact safeOutcome_receiveByte d _
  | idle => rw [exec_dra_of_unexpected d (.inl hs)]; rfl
  | rr => rw [exec_dra_of_unexpected d (.inr hs)]; rfl

/-- I6: the message of a completed write is there to read (10_state.md R34). -/
theorem safeOutcome_sor {s : State} (h : s.Inv) : safeOutcome (exec .sor s) = true := by
  obtain ⟨⟨hrc, -, -⟩, -, -, ⟨hrx, -⟩, -⟩ := h
  cases hs : s.state with
  | idle => rw [exec_sor_of_idle hs]; rfl
  | rr => rw [exec_sor_of_unexpected (.inl hs)]; rfl
  | wtrr => rw [exec_sor_of_unexpected (.inr hs)]; rfl
  | wr =>
    rw [exec_sor_of_wr hs]
    split
    · rfl
    · split
      · rfl
      · next hc =>
        obtain ⟨code, args, hw⟩ := writeComplete_of_holds (s := acknowledged s) (Nat.pos_of_ne_zero hc) hrc
          (hrx (by simp [hs]))
        rw [hw]
        exact safeOutcome_dispatchMessage code args _

/-- A byte of tx that the current transaction holds can be read out. -/
theorem exists_get_of_holdsByte_tx {s : State} {k : Nat} (h : s.holdsByte .tx k = true) :
    k ∈ s.txWritten ∧ ∃ v, s.tx.get k = some v := by
  obtain ⟨hw, hg⟩ := State.holdsByte_iff.mp h
  exact ⟨hw, Option.isSome_iff_exists.mp hg⟩

/-- I3 and I7: in WTRR the first prepared byte is there to send (10_state.md R34). -/
theorem exists_first_of_wtrr {s : State} (h : s.Inv) (hs : s.state = .wtrr) :
    0 ∈ s.txWritten ∧ ∃ v, s.tx.get 0 = some v := by
  have h1 := txLen_pos_of_wtrr h hs
  obtain ⟨-, -, -, ⟨-, -, htx⟩, -⟩ := h
  exact exists_get_of_holdsByte_tx (htx (.inl hs) 0 h1)

/-- I1 and I7: in RR with bytes left the next prepared byte is there to send (10_state.md R34). -/
theorem exists_next_of_rr {s : State} (h : s.Inv) (hs : s.state = .rr) (hn : s.txCount ≠ s.txLen) :
    s.txCount < 33 ∧ s.txCount ∈ s.txWritten ∧ ∃ v, s.tx.get s.txCount = some v := by
  obtain ⟨⟨-, htc, htl⟩, -, -, ⟨-, -, htx⟩, -⟩ := h
  exact ⟨by omega, exists_get_of_holdsByte_tx (htx (.inr hs) s.txCount (by omega))⟩

theorem safeOutcome_amr {s : State} (h : s.Inv) : safeOutcome (exec .amr s) = true := by
  cases hs : s.state with
  | idle => rw [exec_amr_of_idle hs]; rfl
  | wr => rw [exec_amr_of_unexpected (.inl hs)]; rfl
  | rr => rw [exec_amr_of_unexpected (.inr hs)]; rfl
  | wtrr =>
    obtain ⟨hw, v, hv⟩ := exists_first_of_wtrr h hs
    rw [exec_amr_of_wtrr hs, startRead_of_get (s := acknowledged s) hw hv]
    rfl

theorem safeOutcome_dta {s : State} (h : s.Inv) : safeOutcome (exec .dta s) = true := by
  by_cases hx : s.state = .idle ∨ s.txCount = s.txLen
  · rw [exec_dta_of_exhausted hx]; rfl
  · obtain ⟨hi, hn⟩ := not_or.mp hx
    cases hs : s.state with
    | idle => exact absurd hs hi
    | wr => rw [exec_dta_of_unexpected (.inl hs) hn]; rfl
    | wtrr => rw [exec_dta_of_unexpected (.inr hs) hn]; rfl
    | rr =>
      obtain ⟨hc, hw, v, hv⟩ := exists_next_of_rr h hs hn
      rw [exec_dta_of_rr hs hn, sendNext_of_get (s := acknowledged s) hc hw hv]
      rfl

theorem safeOutcome_dtn (s : State) : safeOutcome (exec .dtn s) = true := by
  by_cases hs : s.state = .rr
  · rw [exec_dtn_of_rr hs]
    split <;> rfl
  · rw [exec_dtn_of_ne_rr hs]; rfl

/-- Under the invariants no instruction that an input stands for faults on a buffer. -/
theorem safeOutcome_exec {i : Instr} {s : State} (h : s.Inv) (hi : i.commandParts = none) :
    safeOutcome (exec i s) = true := by
  cases i with
  | dra d => exact safeOutcome_dra d s
  | sor => exact safeOutcome_sor h
  | amr => exact safeOutcome_amr h
  | dta => exact safeOutcome_dta h
  | dtn => exact safeOutcome_dtn s
  | amw | drn | ldtau | be | unr | unrRsvAB | unrRsvCF | fgInit | fgEnable | fgDisable | fgReadErr => rfl
  | _ => cases hi

/-! ### The obligations -/

/-- Settles O14: an input never stands for a command, and every other way to go on keeps the invariants. -/
theorem stepKeepsTheInvariants : Obligations.StepKeepsTheInvariants := by
  intro s t h hstep
  cases hin : s.inputs with
  | nil =>
    rw [step_of_nil hin] at hstep
    cases hstep
    exact h
  | cons x rest =>
    rw [step_of_cons hin] at hstep
    exact inv_of_goes (exec_eq_next hstep) (commandParts_decodeInput s.config x) h

/-- Settles O15, by the outcome of each instruction that an input can stand for. -/
theorem invariantsExcludeBufferFaults : Obligations.InvariantsExcludeBufferFaults := by
  intro s h
  cases hin : s.inputs with
  | nil => rw [step_of_nil hin]; rfl
  | cons x rest =>
    rw [step_of_cons hin]
    exact safeOutcome_exec (s := { s with inputs := rest }) h (commandParts_decodeInput s.config x)

/-- Settles O9: the step's equation, the input's decoder put in. -/
theorem stepRunsTheDecodedInput : Obligations.StepRunsTheDecodedInput := by
  intro s x rest h
  refine ⟨step_of_cons h, fun w hw => ?_, fun op hop => ?_⟩
  · subst hw
    exact step_of_cons h
  · subst hop
    exact step_of_cons h

/-- Settles O10: the step's equation for an empty list of inputs. -/
theorem stepWithoutInputChangesNothing : Obligations.StepWithoutInputChangesNothing :=
  fun _ => step_of_nil

/-- Settles O12: field by field, the reset state as it is written out. -/
theorem resetLeavesTheStatedValues : Obligations.ResetLeavesTheStatedValues :=
  ⟨rfl, rfl, rfl, rfl, rfl, rfl, rfl, rfl, rfl, fun i => ⟨Memory.get_nil i, Memory.get_nil i⟩, rfl, rfl⟩

/-- Settles O13: reset is in Idle with counters 0 and empty buffers. -/
theorem resetMeetsTheInvariants : Obligations.ResetMeetsTheInvariants :=
  inv_of_idle State.reset_state (by simp [State.CountersInRange]) reset_buffers_wf

end Sys2Proof.Proofs.Invariants

/-! The commands (44_commands.md section 2): each is one checked call, whose end the answer of its row decides, and what
a call leaves as it was. -/

namespace Sys2Proof.Proofs.Commands

open Sys2Proof.Machine Sys2Proof.Stated Sys2Proof.Proofs.Decoding Sys2Proof.Proofs.Receive Sys2Proof.Proofs.Dispatcher

/-! ### A command is one checked call -/

theorem commandAnswer_eq_answerOf (c : Command) (code : Byte) (args : List Byte) (s : State) :
    commandAnswer c code args s = answerOf s code args (.default c) :=
  entryAnswer_eq_answerOf (.default c) code args s

/-- A command is one checked call, with the answer of its row (44_commands.md R195). -/
theorem exec_of_commandParts {i : Instr} {c : Command} {code : Byte} {args : List Byte}
    (h : i.commandParts = some (c, code, args)) (s : State) :
    exec i s = checkedCall c.declaredLength code args (answerOf s code args (.default c)) s := by
  rw [exec_command h, runCommand_eq, commandAnswer_eq_answerOf]

/-- A command of the declared length whose handler returns ends as its answer says, one draw used. -/
theorem exec_of_answer {i : Instr} {c : Command} {code : Byte} {args : List Byte} {s : State}
    (h : i.commandParts = some (c, code, args)) (hn : args.length + 1 = c.declaredLength)
    (hr : (replyOf s code args).returns = true) :
    exec i s = finishCall code args (answerOf s code args (.default c)) s.takeDraw := by
  rw [exec_of_commandParts h]
  exact checkedCall_right code _ hn hr

/-- A command of another length ends with ERR 1 and no call (43_dispatcher.md R173). -/
theorem exec_of_wrong_length {i : Instr} {c : Command} {code : Byte} {args : List Byte} (s : State)
    (h : i.commandParts = some (c, code, args)) (hn : args.length + 1 ≠ c.declaredLength) :
    exec i s = .next (miscounted s) := by
  rw [exec_of_commandParts h]
  exact checkedCall_wrong code _ s hn

/-! ### The three kinds of row -/

theorem completesDone_of_answer {mk : Byte → List Byte → Instr} (c : Command)
    (h : ∀ code args, (mk code args).commandParts = some (c, code, args))
    (ha : ∀ s code args, answerOf s code args (.default c) = .done) : CompletesDone mk c.declaredLength := by
  refine fun code args s => ⟨fun hn hr => ?_, exec_of_wrong_length s (h code args)⟩
  rw [exec_of_answer (h code args) hn hr, ha]
  rfl

theorem completesDoneOrReject_of_answer {mk : Byte → List Byte → Instr} (c : Command)
    (h : ∀ code args, (mk code args).commandParts = some (c, code, args))
    (ha : ∀ s code args, answerOf s code args (.default c) =
      if (replyOf s code args).accepts then .done else .reject) : CompletesDoneOrReject mk c.declaredLength := by
  refine fun code args s => ⟨fun hn hr => ?_, exec_of_wrong_length s (h code args)⟩
  rw [exec_of_answer (h code args) hn hr, ha]
  refine ⟨fun hacc => ?_, fun hacc => ?_⟩
  · rw [if_pos hacc]
    rfl
  · rw [if_neg (by simp [hacc])]
    rfl

/-- What a response writes stands in tx from index 0 on, and the rest of tx is as it was. -/
theorem withResponse_respondedState (code : Byte) (args b : List Byte) (s : State) :
    WithResponse (respondedState code args b s.takeDraw) (responded s code args b.length) b := by
  refine ⟨rfl, fun k hk => ?_, fun k hk => ?_⟩
  · exact (Memory.get_putList s.tx 0 k b).trans (if_pos (by omega))
  · exact (Memory.get_putList s.tx 0 k b).trans (if_neg (by omega))

theorem completesWithByte_of_answer {mk : Byte → List Byte → Instr} {byte : State → Byte → List Byte → Byte}
    (c : Command) (hl : c.declaredLength = 1) (h : ∀ code args, (mk code args).commandParts = some (c, code, args))
    (ha : ∀ s code args, answerOf s code args (.default c) = .respond [byte s code args]) :
    CompletesWithByte mk byte := by
  refine fun code args s => ⟨fun hn hr => ?_, fun hn => exec_of_wrong_length s (h code args) (hl ▸ hn)⟩
  rw [exec_of_answer (h code args) (hn.trans hl.symm) hr, ha]
  exact ⟨_, finishCall_respond_fits code args _ (by simp) (by simp),
    withResponse_respondedState code args [byte s code args] s⟩

/-! ### The frame of a call -/

/-- What a dispatch leaves as it was (43_dispatcher.md R179). -/
structure DispatchFrame (s t : State) : Prop where
  rx : t.rx = s.rx
  rxCount : t.rxCount = s.rxCount
  rxWritten : t.rxWritten = s.rxWritten
  ack : t.ack = s.ack
  txData : t.txData = s.txData
  txValid : t.txValid = s.txValid
  stop : t.stop = s.stop
  en : t.en = s.en
  fgResult : t.fgResult = s.fgResult
  config : t.config = s.config
  inputs : t.inputs = s.inputs

theorem dispatchEnd_frame {s t : State} (h : DispatchEnd s t) : DispatchFrame s t := by
  cases h <;> constructor <;> rfl

/-- Unless it took a response, a dispatch leaves what belongs to tx alone. -/
theorem dispatchEnd_tx_of_ne_wtrr {s t : State} (h : DispatchEnd s t) (hs : t.state ≠ .wtrr) :
    t.tx = s.tx ∧ t.txWritten = s.txWritten ∧ t.txLen = s.txLen ∧ t.txCount = s.txCount := by
  cases h with
  | responds => exact absurd rfl hs
  | abandons | rejects | completes => exact ⟨rfl, rfl, rfl, rfl⟩

/-- A response leaves ERR alone. -/
theorem dispatchEnd_err_of_wtrr {s t : State} (h : DispatchEnd s t) (hs : t.state = .wtrr) : t.err = s.err := by
  cases h with
  | responds => rfl
  | abandons | rejects | completes => cases hs

theorem dispatchEnd_of_command {i : Instr} {s t : State} (hi : i.commandParts.isSome = true)
    (h : exec i s = .next t) : DispatchEnd s t := by
  obtain ⟨⟨c, code, args⟩, hp⟩ := Option.isSome_iff_exists.mp hi
  rw [exec_command hp] at h
  exact runCommand_end h

/-! ### The oracle -/

/-- The answer of a handler depends on the parameters and the reply to it
(44_commands.md R191, R193). -/
theorem answerOf_congr {s t : State} {code : Byte} {args : List Byte} (hc : s.config = t.config)
    (hr : replyOf s code args = replyOf t code args) (e : Entry) : answerOf s code args e = answerOf t code args e := by
  cases e with
  | default c => cases c <;> simp only [answerOf, hc, hr]
  | external n => simp only [answerOf, hr]

/-- Two draws that reply alike to a call have the same effect on it, in the answer and in what it leaves. -/
theorem checkedCall_congr_draw {d d' : Draw} {code : Byte} {args : List Byte} {s : State} {n : Nat} (e : Entry)
    (rest : List Draw) (hn : args.length + 1 = n)
    (h : replyTo d ⟨code, args, s.en⟩ = replyTo d' ⟨code, args, s.en⟩) :
    checkedCall n code args (answerOf { s with draws := d :: rest } code args e) { s with draws := d :: rest } =
      checkedCall n code args (answerOf { s with draws := d' :: rest } code args e) { s with draws := d' :: rest } := by
  rw [answerOf_congr (s := { s with draws := d :: rest }) (t := { s with draws := d' :: rest }) rfl h]
  generalize answerOf { s with draws := d' :: rest } code args e = r
  cases hr : (replyTo d ⟨code, args, s.en⟩).returns with
  | false =>
    have hr' : (replyTo d' ⟨code, args, s.en⟩).returns = false := h ▸ hr
    rw [checkedCall_stuck (s := { s with draws := d :: rest }) code r hn hr,
      checkedCall_stuck (s := { s with draws := d' :: rest }) code r hn hr']
  | true =>
    have hr' : (replyTo d' ⟨code, args, s.en⟩).returns = true := h ▸ hr
    rw [checkedCall_right (s := { s with draws := d :: rest }) code r hn hr,
      checkedCall_right (s := { s with draws := d' :: rest }) code r hn hr']
    rfl

/-! ### The obligations -/

/-- Settles O11: both run the command that the table binds to the code. -/
theorem sorRunsTheDecodedCommand : Obligations.SorRunsTheDecodedCommand := by
  intro s code args i hm hdec
  obtain ⟨c, hl, -, rfl⟩ := decodeMessage_eq_ok.mp hdec
  rw [exec_sor_of_entry hm hl, exec_of_commandParts (commandParts_toInstr c code args), answerOf_acknowledged]
  rfl

/-- Settles O32: the call of a message, and that of a command, is stuck once the length is right. -/
theorem hangingHandlerIsStuck : Obligations.HangingHandlerIsStuck := by
  refine ⟨fun s code args e hm hl hn hr => ?_, fun s i c code args hp hn hr => ?_⟩
  · rw [rxCount_of_message hm] at hn
    exact (exec_sor_of_entry hm hl).trans (checkedCall_stuck code _ hn hr)
  · exact (exec_of_commandParts hp s).trans (checkedCall_stuck code _ hn hr)

/-- Settles O33: the rows of the seven commands say Done. -/
theorem doneCommandsComplete : Obligations.DoneCommandsComplete :=
  have row {mk : Byte → List Byte → Instr} := @completesDone_of_answer mk
  ⟨row .enableOutputs (fun _ _ => rfl) fun _ _ _ => rfl, row .disableOutputs (fun _ _ => rfl) fun _ _ _ => rfl,
    row .stepForward (fun _ _ => rfl) fun _ _ _ => rfl, row .stepBackward (fun _ _ => rfl) fun _ _ _ => rfl,
    row .stepsForward (fun _ _ => rfl) fun _ _ _ => rfl, row .stepsBackward (fun _ _ => rfl) fun _ _ _ => rfl,
    row .stepRelease (fun _ _ => rfl) fun _ _ _ => rfl⟩

/-- Settles O34: the rows of the six commands say Done or Reject. -/
theorem acceptingCommandsComplete : Obligations.AcceptingCommandsComplete :=
  have row {mk : Byte → List Byte → Instr} := @completesDoneOrReject_of_answer mk
  ⟨row .setMotorType (fun _ _ => rfl) fun _ _ _ => rfl, row .setTimerDivider (fun _ _ => rfl) fun _ _ _ => rfl,
    row .setSpeed (fun _ _ => rfl) fun _ _ _ => rfl, row .setDirection (fun _ _ => rfl) fun _ _ _ => rfl,
    row .setStepCount (fun _ _ => rfl) fun _ _ _ => rfl, row .stepSpeed (fun _ _ => rfl) fun _ _ _ => rfl⟩

/-- Settles O35: the rows of the two commands respond with one byte. -/
theorem respondingCommandsComplete : Obligations.RespondingCommandsComplete :=
  ⟨completesWithByte_of_answer .identify rfl (fun _ _ => rfl) fun _ _ _ => rfl,
    completesWithByte_of_answer .stepRemaining rfl (fun _ _ => rfl) fun _ _ _ => rfl⟩

/-- Settles O36, by the frame of a dispatch. -/
theorem commandsLeaveTheRest : Obligations.CommandsLeaveTheRest := by
  intro i s t hi h
  have hd := dispatchEnd_of_command hi h
  have hf := dispatchEnd_frame hd
  exact ⟨hf.rx, hf.rxCount, hf.rxWritten, hf.ack, hf.txData, hf.txValid, hf.stop, hf.en, hf.fgResult, hf.config,
    hf.inputs, dispatchEnd_tx_of_ne_wtrr hd, dispatchEnd_err_of_wtrr hd⟩

/-- Settles O54: the message, or the command, is one checked call, which asks the draw for its call alone. -/
theorem handlerIsAskedForItsCall : Obligations.HandlerIsAskedForItsCall := by
  refine ⟨fun s code args e d d' rest hm hl hn h => ?_, fun s i c code args d d' rest hp hn h => ?_⟩
  · rw [rxCount_of_message hm] at hn
    rw [exec_sor_of_entry (s := { s with draws := d :: rest }) hm hl,
      exec_sor_of_entry (s := { s with draws := d' :: rest }) hm hl]
    exact checkedCall_congr_draw (s := acknowledged s) e rest hn h
  · rw [exec_of_commandParts hp, exec_of_commandParts hp]
    exact checkedCall_congr_draw (.default c) rest hn h

end Sys2Proof.Proofs.Commands

/-! What every instruction leaves as it was, and when (10_state.md sections 4 to 6; 42_error_events.md section 4): by
the ways to go on, one case for each branch of each meaning. -/

namespace Sys2Proof.Proofs.Events

open Sys2Proof.Machine Sys2Proof.Stated Sys2Proof.Proofs.Decoding Sys2Proof.Proofs.Invariants Sys2Proof.Proofs.Receive
  Sys2Proof.Proofs.Transmit Sys2Proof.Proofs.Commands

/-! ### The start of an event step -/

/-- A bus event sees of a state what its start leaves of it (40_receive.md R100). -/
theorem exec_congr_of_beginEvent {i : Instr} {s t : State} (hi : isBusEvent i = true)
    (h : s.beginEvent = t.beginEvent) : exec i s = exec i t := by
  cases i with
  | amw => simp only [exec, execAmw, h]
  | dra d => simp only [exec, execDra, h]
  | drn d => simp only [exec, execDrn, h]
  | sor => simp only [exec, execSor, h]
  | amr => simp only [exec, execAmr, h]
  | dta => simp only [exec, execDta, h]
  | dtn => simp only [exec, execDtn, h]
  | ldtau => simp only [exec, execLdtau, h]
  | be => simp only [exec, execBe, h]
  | unr => simp only [exec, execUnr, h]
  | unrRsvAB low => simp only [exec, execUnrRsvAB, h]
  | unrRsvCF low => simp only [exec, execUnrRsvCF, h]
  | _ => cases hi

theorem beginEvent_of_outputs (s : State) (a v p : Bool) :
    State.beginEvent { s with ack := a, txValid := v, stop := p } = s.beginEvent := rfl

theorem beginEvent_of_counters {s : State} (hs : s.state = .idle) (n m k : Nat) (e : Bool) (r w : List Nat) :
    State.beginEvent { s with rxCount := n, txLen := m, txCount := k, err := e, rxWritten := r, txWritten := w } =
      s.beginEvent := by
  rw [s.beginEvent_of_idle hs]
  exact State.beginEvent_of_idle _ hs

/-! ### Which ways a bus event goes on -/

theorem commandParts_of_isBusEvent {i : Instr} (h : isBusEvent i = true) : i.commandParts = none := by
  cases i with
  | amw | dra | drn | sor | amr | dta | dtn | ldtau | be | unr | unrRsvAB | unrRsvCF => rfl
  | _ => cases h

/-- Where DataReceivedAck is unexpected no transaction is open for received bytes (40_receive.md R110). -/
theorem not_open_of_unexpected {s : State} (h : s.state = .idle ∨ s.state = .rr) :
    ¬ (s.state = .wr ∨ s.state = .wtrr) := by
  rcases h with h | h <;> simp [h]

/-- A dispatch never clears ERR. -/
theorem dispatchEnd_err {s t : State} (h : DispatchEnd s t) (he : s.err = true) : t.err = true := by
  cases h with
  | abandons | rejects => rfl
  | completes | responds => exact he

/-- A dispatch that sets ERR ends in Idle with one cause, which is not the overflow (60_exceptions.md R240, R241). -/
theorem dispatchEnd_cause {s t : State} (h : DispatchEnd s t) (he : s.err = false) (ht : t.err = true) :
    ∃ c, t.trace = .cause c :: s.trace ∧ (t.state = .idle ↔ c ≠ .rxOverflow) := by
  cases h with
  | abandons c hc => exact ⟨c, rfl, by simp [hc]⟩
  | rejects => exact ⟨.handlerReject, rfl, by simp⟩
  | completes | responds => exact absurd (he.symm.trans ht) (by decide)

/-! ### The outputs of a step -/

/-- What an event or a foreground operation leaves on the outputs (10_state.md R28, R29). -/
theorem outputs_of_goes {i : Instr} {s t : State} (hg : Goes i s t) (hi : i.commandParts = none) :
    (t.stop = true ↔ i = .be) ∧ (t.txValid = true → i = .amr ∨ i = .dta) ∧
      (t.txValid = false → i ≠ .fgInit → t.txData = s.txData) := by
  cases hg with
  | abandons _ _ c _ hb => simp [hb]
  | sorDispatches _ _ hs he hc hd =>
    have hf := dispatchEnd_frame hd
    simp [hf.stop, hf.txValid, hf.txData]
  | command _ _ _ hi' => simp [hi] at hi'
  | amw | stores | overflows | pastEnd | busError | sorIdle | sorOverflowed | pureRead | startsRead | sends | endsRead
  | fgInit | fgEnable | fgDisable | fgReadErr => simp

/-! ### The marks of the current transaction -/

/-- For a bus event a transaction starts in Idle or with AddressMatchWrite (40_receive.md R101, R105). -/
theorem startsTransaction_iff_of_isBusEvent {i : Instr} {s : State} (hi : isBusEvent i = true) :
    StartsTransaction i s ↔ s.state = .idle ∨ i = .amw := by
  have hfg : i ≠ .fgInit := by
    rintro rfl
    cases hi
  simp [StartsTransaction, hi, hfg]

theorem not_startsTransaction_of_command {i : Instr} {s : State} (hi : i.commandParts.isSome = true) :
    ¬ StartsTransaction i s := by
  rintro (⟨hb, -⟩ | rfl | rfl)
  · simp [commandParts_of_isBusEvent hb] at hi
  · cases hi
  · cases hi

/-- The marks of rx: those before, none of them where a transaction starts, and the stored byte's. -/
theorem mem_rxWritten_of_goes {i : Instr} {s t : State} (hg : Goes i s t) (k : Nat) :
    k ∈ t.rxWritten ↔
      (k ∈ s.rxWritten ∧ ¬ StartsTransaction i s) ∨
      ((∃ d, i = .dra d) ∧ (s.state = .wr ∨ s.state = .wtrr) ∧ s.rxCount < 34 ∧ k = s.rxCount) := by
  cases hg with
  | amw => simp [StartsTransaction]
  | stores d _ hs hc =>
    have hi := ne_idle_of_open hs
    simp [StartsTransaction, hs, hc, hi, or_comm]
  | overflows d _ hs hc =>
    have hi := ne_idle_of_open hs
    simp [StartsTransaction, hi, Nat.not_lt.mpr hc]
  | abandons _ _ c hb hbe ha hc hd hr =>
    have hno : ¬ ((∃ d, i = .dra d) ∧ (s.state = .wr ∨ s.state = .wtrr) ∧ s.rxCount < 34 ∧ k = s.rxCount) :=
      fun ⟨hdra, hs, _⟩ => not_open_of_unexpected (hr hdra) hs
    rw [or_iff_left hno, startsTransaction_iff_of_isBusEvent hb]
    by_cases hs : s.state = .idle <;> simp [hs, ha]
  | pastEnd =>
    by_cases hs : s.state = .idle <;> simp [StartsTransaction, isBusEvent, hs]
  | busError =>
    by_cases hs : s.state = .idle <;> simp [StartsTransaction, isBusEvent, hs]
  | sorIdle _ hs => simp [StartsTransaction, isBusEvent, hs]
  | sorOverflowed _ hs => simp [StartsTransaction, hs]
  | sorDispatches _ _ hs _ _ hd => simp [(dispatchEnd_frame hd).rxWritten, StartsTransaction, hs]
  | pureRead _ hs => simp [StartsTransaction, isBusEvent, hs]
  | startsRead _ _ hs => simp [StartsTransaction, hs]
  | sends _ _ hs => simp [StartsTransaction, hs]
  | endsRead _ hs => simp [StartsTransaction, hs]
  | fgInit => simp [StartsTransaction]
  | fgEnable => simp [StartsTransaction, isBusEvent]
  | fgDisable => simp [StartsTransaction, isBusEvent]
  | fgReadErr => simp [StartsTransaction, isBusEvent]
  | command _ _ _ hi hd =>
    have hdra : ¬ ∃ d, i = .dra d := by
      rintro ⟨d, rfl⟩
      cases hi
    simp [(dispatchEnd_frame hd).rxWritten, not_startsTransaction_of_command hi, hdra]

/-- The marks of tx: those before, none of them where a transaction starts, and those of a response or of a pure
read. -/
theorem mem_txWritten_of_goes {i : Instr} {s t : State} (hg : Goes i s t) (hamr : i = .amr → s.state = .idle →
    t.state = .rr) (k : Nat) :
    k ∈ t.txWritten ↔
      (k ∈ s.txWritten ∧ ¬ StartsTransaction i s) ∨
      ((i = .sor ∨ i.commandParts.isSome = true) ∧ t.state = .wtrr ∧ k < t.txLen) ∨
      (i = .amr ∧ s.state = .idle ∧ k = 0) := by
  cases hg with
  | amw => simp [StartsTransaction, Instr.commandParts]
  | stores d _ hs =>
    have hi := ne_idle_of_open hs
    simp [StartsTransaction, Instr.commandParts, hi]
  | overflows d _ hs =>
    have hi := ne_idle_of_open hs
    simp [StartsTransaction, Instr.commandParts, hi]
  | abandons _ _ c hb hbe ha =>
    have hno : ¬ (i = .amr ∧ s.state = .idle ∧ k = 0) := fun ⟨hi, hs, _⟩ => by cases hamr hi hs
    rw [startsTransaction_iff_of_isBusEvent hb]
    rw [or_iff_left (not_or.mpr ⟨by simp, hno⟩)]
    by_cases hs : s.state = .idle <;> simp [hs, ha]
  | pastEnd =>
    by_cases hs : s.state = .idle <;> simp [StartsTransaction, isBusEvent, Instr.commandParts, hs]
  | busError =>
    by_cases hs : s.state = .idle <;> simp [StartsTransaction, isBusEvent, Instr.commandParts, hs]
  | sorIdle _ hs => simp [StartsTransaction, isBusEvent, hs]
  | sorOverflowed _ hs => simp [StartsTransaction, hs]
  | sorDispatches _ _ hs _ _ hd => simp [hd.marks.2, StartsTransaction, hs]
  | pureRead _ hs => simp [StartsTransaction, isBusEvent, Instr.commandParts, hs]
  | startsRead _ _ hs => simp [StartsTransaction, Instr.commandParts, hs]
  | sends _ _ hs => simp [StartsTransaction, Instr.commandParts, hs]
  | endsRead _ hs => simp [StartsTransaction, Instr.commandParts, hs]
  | fgInit => simp [StartsTransaction, Instr.commandParts]
  | fgEnable => simp [StartsTransaction, isBusEvent, Instr.commandParts]
  | fgDisable => simp [StartsTransaction, isBusEvent, Instr.commandParts]
  | fgReadErr => simp [StartsTransaction, isBusEvent, Instr.commandParts]
  | command _ _ _ hi hd =>
    have hne : i ≠ .amr := by
      rintro rfl
      cases hi
    simp [hd.marks.2, not_startsTransaction_of_command hi, hi, hne]

/-! ### The obligations -/

/-- Settles O37: FG_INIT writes the reset values out. -/
theorem fgInitResetsTheEngine : Obligations.FgInitResetsTheEngine :=
  fun _ => ⟨_, rfl, rfl⟩

/-- Settles O38: the two meanings are the states written out. -/
theorem fgEnableAndDisableWriteEnabledOnly : Obligations.FgEnableAndDisableWriteEnabledOnly :=
  fun _ => ⟨rfl, rfl⟩

/-- Settles O39: the meaning is the state written out. -/
theorem fgReadErrReturnsErr : Obligations.FgReadErrReturnsErr :=
  fun _ => rfl

/-- Settles O40: the start of the step overwrites the outputs and, in Idle, the counters. -/
theorem eventsStartAfresh : Obligations.EventsStartAfresh :=
  fun _ s hi => ⟨fun a v p => exec_congr_of_beginEvent hi (beginEvent_of_outputs s a v p),
    fun hs n m k e r w => exec_congr_of_beginEvent hi (beginEvent_of_counters hs n m k e r w)⟩

/-- Settles O41, by the ways to go on. -/
theorem ackIsZeroInTwoCases : Obligations.AckIsZeroInTwoCases := by
  intro i s t hi h
  have hp := commandParts_of_isBusEvent hi
  cases exec_eq_next h with
  | stores d _ hs hc => simp [hs, Nat.succ_le_succ_iff]
  | overflows d _ hs hc => simp [hs, Nat.le_of_succ_le hc]
  | abandons _ _ c _ _ _ _ hd hr =>
    have hdra : ¬ ((∃ d, i = .dra d) ∧ (s.state = .wr ∨ s.state = .wtrr) ∧ 33 ≤ s.rxCount) :=
      fun ⟨hdra, hs, _⟩ => not_open_of_unexpected (hr hdra) hs
    have hdta : ¬ (i = .dta ∧ (s.state = .idle ∨ s.txCount = s.txLen)) := by
      rintro ⟨rfl, hs⟩
      exact hs.elim (hd rfl).1 (hd rfl).2
    simp [hdra, hdta]
  | pastEnd _ hs => simp [hs]
  | sorDispatches _ _ _ _ _ hd => simp [(dispatchEnd_frame hd).ack]
  | sends _ _ hs hn => simp [hs, hn]
  | command _ _ _ hi' => simp [hp] at hi'
  | fgInit | fgEnable | fgDisable | fgReadErr => cases hi
  | amw | busError | sorIdle | sorOverflowed | pureRead | startsRead | endsRead => simp

/-- Settles O42: each of these events abandons, but for the end of a read. -/
theorem otherEventsEndInIdle : Obligations.OtherEventsEndInIdle := by
  intro i s hi hamw hdra hamr hdta hsor
  cases i with
  | amw => exact absurd rfl hamw
  | dra d => exact absurd rfl (hdra d)
  | amr => exact absurd rfl hamr
  | dta => exact absurd rfl hdta
  | sor => exact absurd rfl hsor
  | dtn =>
    by_cases hs : s.state = .rr
    · rw [exec_dtn_of_rr hs]
      split <;> exact ⟨_, rfl, rfl⟩
    · rw [exec_dtn_of_ne_rr hs]
      exact ⟨_, rfl, rfl⟩
  | drn | ldtau | be | unr | unrRsvAB | unrRsvCF => exact ⟨_, rfl, rfl⟩
  | _ => cases hi

/-- Settles O43: a bus event is neither a command nor FG_INIT. -/
theorem outputsOfABusEvent : Obligations.OutputsOfABusEvent := by
  intro i s t hi h
  have hfg : i ≠ .fgInit := by
    rintro rfl
    cases hi
  obtain ⟨hstop, hvalid, hdata⟩ := outputs_of_goes (exec_eq_next h) (commandParts_of_isBusEvent hi)
  exact ⟨hstop, hvalid, fun hv => hdata hv hfg⟩

/-- Settles O53: an input stands for an event or a foreground operation. -/
theorem outputsArePulsesOfOneStep : Obligations.OutputsArePulsesOfOneStep := by
  intro s t x rest hin hstep
  rw [step_of_cons hin] at hstep
  exact outputs_of_goes (s := { s with inputs := rest }) (exec_eq_next hstep) (commandParts_decodeInput s.config x)

/-- Settles O44, by the ways to go on. -/
theorem onlyOwnersWriteTheBuffers : Obligations.OnlyOwnersWriteTheBuffers := by
  intro i s t h
  cases exec_eq_next h with
  | stores | fgInit | pureRead => simp
  | sorDispatches _ _ _ _ _ hd => simp [(dispatchEnd_frame hd).rx]
  | command _ _ _ hi hd => simp [(dispatchEnd_frame hd).rx, hi]
  | amw | overflows | abandons | pastEnd | busError | sorIdle | sorOverflowed | startsRead | sends | endsRead
  | fgEnable | fgDisable | fgReadErr => simp

/-- Settles O45, by the ways to go on. -/
theorem onlyForegroundWritesEnabled : Obligations.OnlyForegroundWritesEnabled := by
  intro i s t h
  cases exec_eq_next h with
  | sorDispatches _ _ _ _ _ hd =>
    have hf := dispatchEnd_frame hd
    simp [hf.en, hf.config, hf.inputs]
  | command _ _ _ hi hd =>
    have hf := dispatchEnd_frame hd
    simp [hf.en, hf.config, hf.inputs]
  | amw | stores | overflows | abandons | pastEnd | busError | sorIdle | sorOverflowed | pureRead | startsRead | sends
  | endsRead | fgInit | fgEnable | fgDisable | fgReadErr => simp

/-- Settles O47, by the ways to go on: an abandonment sets ERR, and a dispatch never clears it. -/
theorem errIsClearedNowhereElse : Obligations.ErrIsClearedNowhereElse := by
  intro i s t h he ht
  cases exec_eq_next h with
  | sorIdle _ hs => exact .inl ⟨rfl, hs⟩
  | pureRead _ hs => exact .inl ⟨rfl, hs⟩
  | amw => exact .inr (.inl rfl)
  | fgInit => exact .inr (.inr rfl)
  | sorDispatches _ _ _ he' => simp [he] at he'
  | command _ _ _ _ hd => simp [dispatchEnd_err hd he] at ht
  | sorOverflowed _ hs => simp [hs, he] at ht
  | endsRead _ hs => simp [hs, he] at ht
  | stores | startsRead | sends | fgEnable | fgDisable | fgReadErr => simp [he] at ht
  | overflows | abandons | pastEnd | busError => simp at ht

/-- Settles O48, by the ways to go on: each that sets ERR is an abandonment or the overflow. -/
theorem errIsSetWithACause : Obligations.ErrIsSetWithACause := by
  intro i s t h he ht
  cases exec_eq_next h with
  | overflows d _ hs => exact ⟨_, rfl, by rcases hs with hs | hs <;> simp [hs]⟩
  | abandons _ _ c _ _ _ hc => exact ⟨c, by simp, by simp [hc]⟩
  | pastEnd => exact ⟨.txPastEnd, by simp, by simp⟩
  | busError => exact ⟨.busError, by simp, by simp⟩
  | sorDispatches _ _ hs _ _ hd => simpa using dispatchEnd_cause hd (by simp [hs, he]) ht
  | command _ _ _ _ hd => exact dispatchEnd_cause hd he ht
  | amw | fgInit | sorIdle | pureRead | sorOverflowed | endsRead => simp_all
  | stores | startsRead | sends | fgEnable | fgDisable | fgReadErr => simp [he] at ht

/-- Settles O55, rx and tx apart; an AddressMatchRead in Idle always ends in RR. -/
theorem marksFollowTheWrites : Obligations.MarksFollowTheWrites := by
  intro i s t h
  have hg := exec_eq_next h
  refine ⟨mem_rxWritten_of_goes hg, mem_txWritten_of_goes hg ?_⟩
  rintro rfl hs
  rw [exec_amr_of_idle hs] at h
  cases h
  rfl

/-- Settles O57: the byte is that of a pure read, or one that the invariants say is prepared. -/
theorem sentBytesAreOfThisTransaction : Obligations.SentBytesAreOfThisTransaction := by
  intro i s t h hi hexec hv
  have hp := commandParts_of_isBusEvent hi
  cases exec_eq_next hexec with
  | pureRead _ hs => simp [Memory.get_put_self]
  | startsRead _ v hs hget =>
    obtain ⟨hw, -⟩ := exists_first_of_wtrr h hs
    exact ⟨Nat.le.refl, txLen_pos_of_wtrr (s := s) h hs, hw, hget⟩
  | sends _ v hs hn hc hget =>
    obtain ⟨-, hw, -⟩ := exists_next_of_rr h hs hn
    exact ⟨Nat.succ_le_succ (Nat.zero_le _), Nat.lt_of_le_of_ne (txCount_le_of_inv h) hn, hw, hget⟩
  | sorDispatches _ _ _ _ _ hd => simp [(dispatchEnd_frame hd).txValid] at hv
  | command _ _ _ hi' => simp [hp] at hi'
  | fgInit | fgEnable | fgDisable | fgReadErr => cases hi
  | amw | stores | overflows | abandons | pastEnd | busError | sorIdle | sorOverflowed | endsRead => simp at hv

end Sys2Proof.Proofs.Events

/-! The buffers (20_memory.md section 1) and what a transaction reads and writes of them, byte by byte: a write phase, a
read phase, and the message that a StopOrRestart completes. -/

namespace Sys2Proof.Proofs.Transactions

open Sys2Proof.Machine Sys2Proof.Stated Sys2Proof.Proofs.Encoding Sys2Proof.Proofs.Invariants Sys2Proof.Proofs.Receive
  Sys2Proof.Proofs.Transmit Sys2Proof.Proofs.Dispatcher

/-! ### One access -/

/-- A read depends on the byte's mark and on what the buffer holds there. -/
theorem memRead_congr {b : Buffer} {j : Nat} {s t : State} (hw : j ∈ t.written b ↔ j ∈ s.written b)
    (hm : (t.mem b).get j = (s.mem b).get j) : memRead b j t = memRead b j s := by
  simp only [memRead, hw, hm]

/-- A write within the capacity leaves every other byte as it read before (20_memory.md R51). -/
theorem memRead_of_memWrite_ne {b b' : Buffer} {i j : Nat} {v : Byte} {s t : State} (h : memWrite b i v s = .ok t)
    (hne : b' ≠ b ∨ j ≠ i) : memRead b' j t = memRead b' j s := by
  obtain ⟨-, rfl⟩ := memWrite_eq_ok.mp h
  refine memRead_congr ?_ ?_
  · have hno : ¬ (b' = b ∧ j = i) := fun ⟨hb, hj⟩ => hne.elim (· hb) (· hj)
    rw [State.mem_written_markWritten, or_iff_right hno, State.withMem_written]
  · rw [State.markWritten_mem]
    cases b <;> cases b' <;> simp at hne <;> simp [Memory.get_put_ne, hne]

/-- A byte just written reads back. -/
theorem memRead_of_memWrite_self {b : Buffer} {i : Nat} {v : Byte} {s t : State} (h : memWrite b i v s = .ok t) :
    memRead b i t = .ok v := by
  obtain ⟨hi, rfl⟩ := memWrite_eq_ok.mp h
  refine memRead_eq_ok.mpr ⟨hi, State.mem_written_markWritten.mpr (.inl ⟨rfl, rfl⟩), ?_⟩
  rw [State.markWritten_mem]
  cases b <;> exact Memory.get_put_self _ i v

/-! ### A write phase -/

/-- What a write phase that delivers the bytes leaves of the state it starts from (40_receive.md R110, R111). -/
structure AfterReceiving (s t : State) (bytes : List Byte) (rest : List Input) : Prop where
  state : t.state = .wr
  rxCount : t.rxCount = s.rxCount + bytes.length
  err : t.err = s.err
  tx : t.tx = s.tx
  inputs : t.inputs = rest
  stored : ∀ k, k < bytes.length → s.rxCount + k ∈ t.rxWritten ∧ t.rx.get (s.rxCount + k) = bytes[k]?
  marksKept : ∀ k, k ∈ s.rxWritten → k ∈ t.rxWritten
  bytesKept : ∀ k, k < s.rxCount → t.rx.get k = s.rx.get k
  ack : t.ack = if bytes = [] then s.ack else decide (s.rxCount + bytes.length < 34)

/-- The state after one byte of a write phase. -/
def received (s : State) (d : Byte) (rest : List Input) : State :=
  { acknowledged s with
    rx := s.rx.put s.rxCount d, rxWritten := s.rxWritten.insert s.rxCount, rxCount := s.rxCount + 1,
    ack := decide (s.rxCount + 1 < 34), inputs := rest }

theorem step_of_received {s : State} {d : Byte} {rest : List Input} (hs : s.state = .wr) (hc : s.rxCount < 34)
    (hin : s.inputs = .event (eventWord 0x1 d) :: rest) : step s = .next (received s d rest) := by
  rw [step_of_cons hin, decodeInput, decodeEvent_eventWord_one,
    exec_dra_of_open (s := { s with inputs := rest }) d (.inl hs)]
  exact receiveByte_stores d hc

/-- A byte and then the rest of the phase. -/
theorem AfterReceiving.cons {s t : State} {d : Byte} {bytes : List Byte} {next rest : List Input}
    (h : AfterReceiving (received s d next) t bytes rest) : AfterReceiving s t (d :: bytes) rest := by
  have hcount : (received s d next).rxCount = s.rxCount + 1 := rfl
  have hget (k : Nat) : (received s d next).rx.get k = if k = s.rxCount then some d else s.rx.get k :=
    Memory.get_put s.rx s.rxCount k d
  obtain ⟨hstate, hrc, herr, htx, hin, hstored, hmarks, hbytes, hack⟩ := h
  rw [hcount] at hrc hstored hbytes hack
  refine ⟨hstate, ?_, herr, htx, hin, fun k hk => ?_, fun k hk => ?_, fun k hk => ?_, ?_⟩
  · rw [hrc, List.length_cons]
    omega
  · cases k with
    | zero =>
      refine ⟨hmarks _ (List.mem_insert_self ..), ?_⟩
      rw [Nat.add_zero, hbytes _ (Nat.lt_succ_self _), hget, if_pos rfl, List.getElem?_cons_zero]
    | succ k =>
      rw [List.getElem?_cons_succ, show s.rxCount + (k + 1) = s.rxCount + 1 + k by omega]
      exact hstored k (Nat.lt_of_succ_lt_succ hk)
  · exact hmarks k (List.mem_insert_of_mem hk)
  · rw [hbytes k (Nat.lt_succ_of_lt hk), hget, if_neg (Nat.ne_of_lt hk)]
  · rw [hack, if_neg (List.cons_ne_nil d bytes), List.length_cons]
    by_cases hb : bytes = []
    · subst hb
      rfl
    · rw [if_neg hb, show s.rxCount + 1 + bytes.length = s.rxCount + (bytes.length + 1) by omega]

/-- The steps of a write phase that fits rx. -/
theorem stepMany_of_received (bytes : List Byte) (rest : List Input) {s : State} (hs : s.state = .wr)
    (hc : s.rxCount + bytes.length ≤ 34) (hin : s.inputs = receiveInputs bytes ++ rest) :
    ∃ t, stepMany bytes.length s = .next t ∧ AfterReceiving s t bytes rest := by
  induction bytes generalizing s with
  | nil => exact ⟨s, rfl, hs, rfl, rfl, rfl, hin, nofun, fun _ => id, fun _ _ => rfl, rfl⟩
  | cons d bytes ih =>
    rw [List.length_cons] at hc
    have hstep : step s = .next (received s d (receiveInputs bytes ++ rest)) := step_of_received hs (by omega) hin
    obtain ⟨t, hrun, ht⟩ := ih (s := received s d (receiveInputs bytes ++ rest)) hs
      (show s.rxCount + 1 + bytes.length ≤ 34 by omega) rfl
    refine ⟨t, ?_, ht.cons⟩
    rw [List.length_cons, stepMany, hstep]
    exact hrun

/-! ### A read phase -/

/-- The state after one acknowledged byte of a read phase, the next one being `v`. -/
def sent (s : State) (v : Byte) (rest : List Input) : State :=
  { acknowledged s with txData := v, txValid := true, txCount := s.txCount + 1, inputs := rest }

/-- What `n` acknowledged bytes of a read phase leave of the state it starts from (41_transmit.md R133). -/
structure AfterSending (s t : State) (n : Nat) (rest : List Input) : Prop where
  state : t.state = .rr
  txCount : t.txCount = s.txCount + n
  txLen : t.txLen = s.txLen
  err : t.err = s.err
  tx : t.tx = s.tx
  rx : t.rx = s.rx
  inputs : t.inputs = rest
  wire : (n = 0 ∧ t = s) ∨ (t.txValid = true ∧ t.ack = true ∧ s.tx.get (s.txCount + n - 1) = some t.txData)

theorem step_of_sent {s : State} {v : Byte} {rest : List Input} (hs : s.state = .rr) (hn : s.txCount < s.txLen)
    (hl : s.txLen ≤ 33) (hw : s.txCount ∈ s.txWritten) (hv : s.tx.get s.txCount = some v)
    (hin : s.inputs = .event (eventWord 0x5 0) :: rest) : step s = .next (sent s v rest) := by
  have hdec : decodeEvent (eventWord 0x5 0) = .dta := rfl
  rw [step_of_cons hin, decodeInput, hdec, exec_dta_of_rr (s := { s with inputs := rest }) hs (Nat.ne_of_lt hn)]
  exact sendNext_of_get (s := acknowledged { s with inputs := rest }) (Nat.lt_of_lt_of_le hn hl) hw hv

/-- A byte and then the rest of the phase. -/
theorem AfterSending.succ {s t : State} {v : Byte} {n : Nat} {next rest : List Input}
    (hv : s.tx.get s.txCount = some v) (h : AfterSending (sent s v next) t n rest) : AfterSending s t (n + 1) rest := by
  have hcount : (sent s v next).txCount = s.txCount + 1 := rfl
  obtain ⟨hstate, htc, htl, herr, htx, hrx, hin, hwire⟩ := h
  rw [hcount, Nat.add_assoc, Nat.add_comm 1 n] at htc hwire
  refine ⟨hstate, htc, htl, herr, htx, hrx, hin, .inr ?_⟩
  rcases hwire with ⟨rfl, rfl⟩ | hwire
  · exact ⟨rfl, rfl, hv⟩
  · exact hwire

/-- The steps of a read phase with enough bytes left. -/
theorem stepMany_of_sent (n : Nat) (rest : List Input) {s : State} (hs : s.state = .rr)
    (hn : s.txCount + n ≤ s.txLen) (hl : s.txLen ≤ 33) (hheld : ∀ k, k < s.txLen → s.holdsByte .tx k = true)
    (hin : s.inputs = List.replicate n (.event (eventWord 0x5 0)) ++ rest) :
    ∃ t, stepMany n s = .next t ∧ AfterSending s t n rest := by
  induction n generalizing s with
  | zero => exact ⟨s, rfl, hs, rfl, rfl, rfl, rfl, rfl, hin, .inl ⟨rfl, rfl⟩⟩
  | succ n ih =>
    obtain ⟨hw, v, hv⟩ := exists_get_of_holdsByte_tx (hheld s.txCount (by omega))
    have hstep := step_of_sent hs (by omega) hl hw hv hin
    obtain ⟨t, hrun, ht⟩ := ih (s := sent s v (List.replicate n (.event (eventWord 0x5 0)) ++ rest)) hs
      (show s.txCount + 1 + n ≤ s.txLen by omega) hl hheld rfl
    refine ⟨t, ?_, ht.succ hv⟩
    rw [stepMany, hstep]
    exact hrun

/-! ### The message of a StopOrRestart -/

/-- What a completed write reads from rx is a message in the sense of the statements. -/
theorem completesMessage_of_reads {s : State} {code : Byte} {args : List Byte} (hs : s.state = .wr)
    (he : s.err = false) (hc : s.rxCount ≠ 0) (hcode : messageCode s = .ok code) (hargs : messageArgs s = .ok args) :
    CompletesMessage s code args := by
  obtain ⟨-, hw0, hg0⟩ := memRead_eq_ok.mp hcode
  obtain ⟨hlen, hk⟩ := memReadRange_eq_ok.mp hargs
  have hcount : s.rxCount = args.length + 1 := by omega
  refine ⟨hs, he, hcount, ?_, fun i hi => ?_⟩
  · by_cases h0 : args.length = 0
    · omega
    · obtain ⟨hcap, -⟩ := hk (args.length - 1) (by omega)
      rw [Buffer.cap_rx] at hcap
      omega
  · cases i with
    | zero => exact ⟨hw0, hg0⟩
    | succ i =>
      obtain ⟨-, hw, hg⟩ := hk i (by omega)
      rw [Nat.add_comm 1 i] at hw hg
      exact ⟨hw, hg⟩

theorem cause_ne_call {c : Cause} {code : Byte} {args : List Byte} {en : Bool} (l l' : List TraceEvent) :
    TraceEvent.cause c :: l ≠ .handlerCall code args en :: l' := by
  simp

/-- A dispatch that records a call records that of its own message, with the EN of the state. -/
theorem call_of_dispatchMessage {s t : State} {code code' : Byte} {args args' : List Byte} {en : Bool}
    (h : dispatchMessage code args s = .next t) (ht : t.trace = .handlerCall code' args' en :: s.trace) :
    code' = code ∧ args' = args ∧ en = s.en := by
  rcases dispatchMessage_eq_next h with ⟨c, -, rfl⟩ | rfl | rfl | ⟨b, -, -, rfl⟩
  · exact absurd ht (cause_ne_call _ _)
  · exact absurd ht (cause_ne_call _ _)
  · injection ht with ht
    injection ht with hcode hargs hen
    exact ⟨hcode.symm, hargs.symm, hen.symm⟩
  · injection ht with ht
    injection ht with hcode hargs hen
    exact ⟨hcode.symm, hargs.symm, hen.symm⟩

/-- The call that a completed write records is that of the message it read. -/
theorem completesMessage_of_call {s t : State} {code : Byte} {args : List Byte} {en : Bool} (hs : s.state = .wr)
    (he : s.err = false) (hc : s.rxCount ≠ 0) (h : writeComplete (acknowledged s) = .next t)
    (ht : t.trace = .handlerCall code args en :: s.trace) : CompletesMessage s code args ∧ en = s.en := by
  obtain ⟨code', hcode, h⟩ := orFault_eq_next.mp h
  obtain ⟨args', hargs, h⟩ := orFault_eq_next.mp h
  obtain ⟨rfl, rfl, hen⟩ := call_of_dispatchMessage h ht
  exact ⟨completesMessage_of_reads (s := acknowledged s) hs he hc hcode hargs, hen⟩

/-! ### The obligations -/

/-- Settles O49, by the laws of one read and one write. -/
theorem bufferAccessLaws : Obligations.BufferAccessLaws := by
  refine ⟨fun b i v s hi => ?_, fun b i v s hi => ?_, fun b i s hi => ⟨fun h => ?_, fun v hv hw => ?_⟩⟩
  · have hwrite := memWrite_of_lt v s hi
    exact ⟨_, hwrite, memRead_of_memWrite_self hwrite, fun _ _ => memRead_of_memWrite_ne hwrite⟩
  · have hi' := Nat.not_lt.mpr hi
    exact ⟨if_neg hi', if_neg hi'⟩
  · exact memRead_unwritten hi h.symm
  · exact memRead_eq_ok.mpr ⟨hi, hw, hv⟩

/-- Settles O50: the phase from RXCOUNT 0. -/
theorem writePhaseStoresInArrivalOrder : Obligations.WritePhaseStoresInArrivalOrder := by
  intro bytes rest s hs hc hl hin
  obtain ⟨t, hrun, ht⟩ := stepMany_of_received bytes rest hs (by omega) hin
  obtain ⟨hstate, hrc, herr, htx, hin', hstored, -, -, hack⟩ := ht
  simp only [hc, Nat.zero_add] at hrc hstored hack
  refine ⟨t, hrun, hstate, hrc, herr, htx, hin', hstored, fun hpos => ?_⟩
  rw [hack, if_neg (List.length_pos_iff.mp hpos)]

/-- Settles O51: with a byte or more, the last one is on the wire. -/
theorem readPhaseSendsInIndexOrder : Obligations.ReadPhaseSendsInIndexOrder := by
  intro n rest s hs hn hl hheld hin
  obtain ⟨t, hrun, ht⟩ := stepMany_of_sent n rest hs hn hl hheld hin
  refine ⟨t, hrun, ht.state, ht.txCount, ht.txLen, ht.err, ht.tx, ht.rx, ht.inputs, fun hpos => ?_⟩
  exact ht.wire.resolve_left fun ⟨h0, _⟩ => Nat.ne_of_gt hpos h0

/-- Settles O52: the overflow sets ERR and keeps WR, and in WR the StopOrRestart sees ERR before the message. -/
theorem overlongMessageIsNeverDispatched : Obligations.OverlongMessageIsNeverDispatched := by
  intro d s hs hc
  have hdra : exec (.dra d) s = .next (((acknowledged s).flagError .rxOverflow).setAck false) :=
    (exec_dra_of_open d (.inl hs)).trans (receiveByte_overflows d hc)
  have hsor := exec_sor_of_wr (s := ((acknowledged s).flagError .rxOverflow).setAck false) hs
  exact ⟨_, _, hdra, hsor.trans (if_pos rfl), rfl, rfl, rfl, rfl⟩

/-- Settles O56: only in WR with ERR 0 and a message is there a call, and it is the call of that message. -/
theorem dispatchedBytesAreOfThisTransaction : Obligations.DispatchedBytesAreOfThisTransaction := by
  intro s t code args en h htrace
  cases hs : s.state with
  | idle =>
    rw [exec_sor_of_idle hs] at h
    cases h
    simp at htrace
  | rr =>
    rw [exec_sor_of_unexpected (.inl hs)] at h
    cases h
    exact absurd htrace (cause_ne_call _ _)
  | wtrr =>
    rw [exec_sor_of_unexpected (.inr hs)] at h
    cases h
    exact absurd htrace (cause_ne_call _ _)
  | wr =>
    rw [exec_sor_of_wr hs] at h
    by_cases he : s.err = true
    · rw [if_pos he] at h
      cases h
      exact absurd htrace.symm (List.cons_ne_self _ _)
    · rw [if_neg he] at h
      by_cases hc : s.rxCount = 0
      · rw [if_pos hc] at h
        cases h
        exact absurd htrace (cause_ne_call _ _)
      · rw [if_neg hc] at h
        exact completesMessage_of_call hs (eq_false_of_ne_true he) hc h htrace

end Sys2Proof.Proofs.Transactions

/-! EN does not gate the bus (10_state.md R26): every operation commutes with a change of EN, and the one place where
the flag reaches anything is the call that the oracle is asked. -/

namespace Sys2Proof.Proofs.Enabled

open Sys2Proof.Machine Sys2Proof.Stated Sys2Proof.Proofs.Receive Sys2Proof.Proofs.Transmit Sys2Proof.Proofs.Dispatcher
  Sys2Proof.Proofs.Commands Sys2Proof.Proofs.Transactions

/-- The state with another value of EN. -/
def withEnabled (s : State) (b : Bool) : State := { s with en := b }

/-! ### Reads and the start of a step -/

theorem beginEvent_withEnabled (s : State) (b : Bool) :
    (withEnabled s b).beginEvent = withEnabled s.beginEvent b := by
  by_cases hs : s.state = .idle
  · rw [s.beginEvent_of_idle hs]
    exact State.beginEvent_of_idle (withEnabled s b) hs
  · rw [s.beginEvent_of_ne_idle hs]
    exact State.beginEvent_of_ne_idle (withEnabled s b) hs

theorem memReadRange_withEnabled (buf : Buffer) (i n : Nat) (s : State) (b : Bool) :
    memReadRange buf i n (withEnabled s b) = memReadRange buf i n s := by
  induction n generalizing i with
  | zero => rfl
  | succ n ih =>
    have h0 : memRead buf i (withEnabled s b) = memRead buf i s := by cases buf <;> rfl
    simp only [memReadRange, h0, ih]

/-! ### Outcomes that differ in EN alone -/

/-- A step that goes on from what an access answers differs in EN alone if both ways of going on do. -/
theorem sameButEnabled_orFault {α : Type} (e : Except Fault α) {k k' : α → Host.Outcome State Fault Refusal}
    (h : ∀ a, e = .ok a → sameButEnabled (k a) (k' a)) : sameButEnabled (orFault e k) (orFault e k') := by
  cases e with
  | ok a => exact h a rfl
  | error f => rfl

theorem sameButEnabled_finishCall (code : Byte) (args : List Byte) (r : HandlerResult) (s : State) (b : Bool) :
    sameButEnabled (finishCall code args r (withEnabled s b)) (finishCall code args r s) := by
  cases r with
  | reject => rfl
  | done => rfl
  | respond bytes =>
    by_cases h0 : bytes = []
    · subst h0
      rfl
    · by_cases h1 : bytes.length ≤ 33
      · have hpos : 1 ≤ bytes.length := List.length_pos_iff.mpr h0
        rw [finishCall_respond_fits code args _ hpos h1, finishCall_respond_fits code args _ hpos h1]
        rfl
      · rw [finishCall_respond_over code args _ (Nat.lt_of_not_le h1),
          finishCall_respond_over code args _ (Nat.lt_of_not_le h1)]
        rfl

/-- A call that the oracle answers alike for both values of EN ends alike (44_commands.md R194). -/
theorem sameButEnabled_checkedCall {code : Byte} {args : List Byte} {s : State} {b : Bool} (n : Nat)
    (e : Entry) (h : replyOf (withEnabled s b) code args = replyOf s code args) :
    sameButEnabled (checkedCall n code args (answerOf (withEnabled s b) code args e) (withEnabled s b))
      (checkedCall n code args (answerOf s code args e) s) := by
  rw [answerOf_congr (s := withEnabled s b) (t := s) rfl h]
  by_cases hn : args.length + 1 = n
  · cases hr : (replyOf s code args).returns with
    | false =>
      have hr' : (replyOf (withEnabled s b) code args).returns = false := h ▸ hr
      rw [checkedCall_stuck code _ hn hr, checkedCall_stuck code _ hn hr']
      rfl
    | true =>
      have hr' : (replyOf (withEnabled s b) code args).returns = true := h ▸ hr
      rw [checkedCall_right code _ hn hr, checkedCall_right code _ hn hr']
      exact sameButEnabled_finishCall code args _ s.takeDraw b
  · rw [checkedCall_wrong code _ _ hn, checkedCall_wrong code _ _ hn]
    rfl

theorem sameButEnabled_dispatchMessage {code : Byte} {args : List Byte} {s : State} {b : Bool}
    (h : replyOf (withEnabled s b) code args = replyOf s code args) :
    sameButEnabled (dispatchMessage code args (withEnabled s b)) (dispatchMessage code args s) := by
  cases hl : s.config.lookup code with
  | none =>
    rw [dispatchMessage_of_none args hl, dispatchMessage_of_none args (s := withEnabled s b) hl]
    rfl
  | some e =>
    rw [dispatchMessage_of_some args hl, dispatchMessage_of_some args (s := withEnabled s b) hl,
      entryAnswer_eq_answerOf, entryAnswer_eq_answerOf]
    exact sameButEnabled_checkedCall e.declaredLength e h

/-! ### The events -/

theorem sameButEnabled_receiveByte (d : Byte) (s : State) (b : Bool) :
    sameButEnabled (receiveByte d (withEnabled s b)) (receiveByte d s) := by
  by_cases hc : s.rxCount < 34
  · rw [receiveByte_stores d hc, receiveByte_stores (s := withEnabled s b) d hc]
    rfl
  · have hfull : 34 ≤ s.rxCount := Nat.le_of_not_lt hc
    rw [receiveByte_overflows d hfull, receiveByte_overflows (s := withEnabled s b) d hfull]
    rfl

/-- An abandonment records no EN. -/
theorem sameButEnabled_abandon (s : State) (b : Bool) (c : Cause) (ack : Bool) :
    sameButEnabled (.next (((withEnabled s b).beginEvent.abandon c).setAck ack))
      (.next ((s.beginEvent.abandon c).setAck ack)) := by
  rw [beginEvent_withEnabled]
  rfl

theorem sameButEnabled_abandoned {s : State} (hs : s.state ≠ .idle) (b : Bool) (c : Cause) (ack : Bool) :
    sameButEnabled (.next (abandoned (withEnabled s b) c ack false)) (.next (abandoned s c ack false)) := by
  rw [← abandon_eq_abandoned hs, ← abandon_eq_abandoned (s := withEnabled s b) hs]
  exact sameButEnabled_abandon s b c ack

theorem sameButEnabled_dra (d : Byte) (s : State) (b : Bool) :
    sameButEnabled (exec (.dra d) (withEnabled s b)) (exec (.dra d) s) := by
  cases hs : s.state with
  | wr | wtrr =>
    have hopen : s.state = .wr ∨ s.state = .wtrr := by simp [hs]
    rw [exec_dra_of_open d hopen, exec_dra_of_open (s := withEnabled s b) d hopen]
    exact sameButEnabled_receiveByte d (acknowledged s) b
  | idle | rr =>
    have hclosed : s.state = .idle ∨ s.state = .rr := by simp [hs]
    rw [exec_dra_of_unexpected d hclosed, exec_dra_of_unexpected (s := withEnabled s b) d hclosed]
    exact sameButEnabled_abandon s b _ true

theorem sameButEnabled_writeComplete {s : State} {b : Bool}
    (h : ∀ code args, messageCode s = .ok code → messageArgs s = .ok args →
      replyOf (withEnabled s b) code args = replyOf s code args) :
    sameButEnabled (writeComplete (withEnabled s b)) (writeComplete s) := by
  have hargs : messageArgs (withEnabled s b) = messageArgs s := memReadRange_withEnabled .rx 1 (s.rxCount - 1) s b
  rw [writeComplete, writeComplete, hargs]
  refine sameButEnabled_orFault (messageCode s) fun code hcode => ?_
  refine sameButEnabled_orFault (messageArgs s) fun args hargs => ?_
  exact sameButEnabled_dispatchMessage (h code args hcode hargs)

/-- A StopOrRestart reads EN for the call of the message it completes alone. -/
theorem sameButEnabled_sor {s : State} {b : Bool}
    (h : ∀ code args, CompletesMessage s code args → replyOf (withEnabled s b) code args = replyOf s code args) :
    sameButEnabled (exec .sor (withEnabled s b)) (exec .sor s) := by
  cases hs : s.state with
  | rr | wtrr =>
    have hread : s.state = .rr ∨ s.state = .wtrr := by simp [hs]
    rw [exec_sor_of_unexpected hread, exec_sor_of_unexpected (s := withEnabled s b) hread]
    exact sameButEnabled_abandoned (by simp [hs]) b _ true
  | idle =>
    rw [exec_sor_of_idle hs, exec_sor_of_idle (s := withEnabled s b) hs, beginEvent_withEnabled]
    rfl
  | wr =>
    rw [exec_sor_of_wr hs, exec_sor_of_wr (s := withEnabled s b) hs]
    change sameButEnabled (if s.err then _ else if s.rxCount = 0 then _ else _) _
    by_cases he : s.err = true
    · rw [if_pos he, if_pos he]
      rfl
    · rw [if_neg he, if_neg he]
      by_cases hc : s.rxCount = 0
      · rw [if_pos hc, if_pos hc]
        exact sameButEnabled_abandoned (by simp [hs]) b _ true
      · rw [if_neg hc, if_neg hc]
        exact sameButEnabled_writeComplete (s := acknowledged s) fun code args hcode hargs =>
          h code args (completesMessage_of_reads (s := acknowledged s) hs (eq_false_of_ne_true he) hc hcode hargs)

theorem sameButEnabled_amr (s : State) (b : Bool) :
    sameButEnabled (exec .amr (withEnabled s b)) (exec .amr s) := by
  cases hs : s.state with
  | wr | rr =>
    have hbusy : s.state = .wr ∨ s.state = .rr := by simp [hs]
    rw [exec_amr_of_unexpected hbusy, exec_amr_of_unexpected (s := withEnabled s b) hbusy]
    exact sameButEnabled_abandoned (by simp [hs]) b _ true
  | idle =>
    rw [exec_amr_of_idle hs, exec_amr_of_idle (s := withEnabled s b) hs]
    rfl
  | wtrr =>
    rw [exec_amr_of_wtrr hs, exec_amr_of_wtrr (s := withEnabled s b) hs]
    exact sameButEnabled_orFault (memRead .tx 0 (acknowledged s)) fun _ _ => rfl

theorem sameButEnabled_dta (s : State) (b : Bool) :
    sameButEnabled (exec .dta (withEnabled s b)) (exec .dta s) := by
  by_cases hx : s.state = .idle ∨ s.txCount = s.txLen
  · rw [exec_dta_of_exhausted hx, exec_dta_of_exhausted (s := withEnabled s b) hx]
    exact sameButEnabled_abandon s b _ false
  · obtain ⟨hi, hn⟩ := not_or.mp hx
    cases hs : s.state with
    | idle => exact absurd hs hi
    | rr =>
      rw [exec_dta_of_rr hs hn, exec_dta_of_rr (s := withEnabled s b) hs hn]
      exact sameButEnabled_orFault (memRead .tx s.txCount (acknowledged s)) fun _ _ => rfl
    | wr | wtrr =>
      have hopen : s.state = .wr ∨ s.state = .wtrr := by simp [hs]
      rw [exec_dta_of_unexpected hopen hn, exec_dta_of_unexpected (s := withEnabled s b) hopen hn]
      exact sameButEnabled_abandoned hi b _ true

theorem sameButEnabled_dtn (s : State) (b : Bool) :
    sameButEnabled (exec .dtn (withEnabled s b)) (exec .dtn s) := by
  by_cases hs : s.state = .rr
  · rw [exec_dtn_of_rr hs, exec_dtn_of_rr (s := withEnabled s b) hs]
    change sameButEnabled (if s.txCount = s.txLen then _ else _) _
    by_cases hn : s.txCount = s.txLen
    · rw [if_pos hn, if_pos hn]
      rfl
    · rw [if_neg hn, if_neg hn]
      exact sameButEnabled_abandoned (by simp [hs]) b _ true
  · rw [exec_dtn_of_ne_rr hs, exec_dtn_of_ne_rr (s := withEnabled s b) hs]
    exact sameButEnabled_abandon s b _ true

theorem sameButEnabled_command {i : Instr} {c : Command} {code : Byte} {args : List Byte} {s : State} {b : Bool}
    (hp : i.commandParts = some (c, code, args)) (h : replyOf (withEnabled s b) code args = replyOf s code args) :
    sameButEnabled (exec i (withEnabled s b)) (exec i s) := by
  rw [exec_of_commandParts hp, exec_of_commandParts hp]
  exact sameButEnabled_checkedCall c.declaredLength (.default c) h

/-! ### The obligation -/

/-- Settles O46: an event but StopOrRestart asks for no call, and the call of a message or a command is answered alike
by the premise. -/
theorem enabledFlagDoesNotGateTheBus : Obligations.EnabledFlagDoesNotGateTheBus := by
  intro i s b hfg h
  have command {c : Command} {code : Byte} {args : List Byte} (hp : i.commandParts = some (c, code, args)) :
      sameButEnabled (exec i { s with en := b }) (exec i s) :=
    sameButEnabled_command hp (h code args (.inr ⟨c, hp⟩))
  cases i with
  | dra d => exact sameButEnabled_dra d s b
  | sor => exact sameButEnabled_sor fun code args hm => h code args (.inl ⟨rfl, hm⟩)
  | amr => exact sameButEnabled_amr s b
  | dta => exact sameButEnabled_dta s b
  | dtn => exact sameButEnabled_dtn s b
  | amw =>
    rw [exec, exec, execAmw_eq, execAmw_eq]
    rfl
  | drn d => exact sameButEnabled_abandon s b _ true
  | ldtau => exact sameButEnabled_abandon s b _ true
  | unr => exact sameButEnabled_abandon s b _ true
  | unrRsvAB low => exact sameButEnabled_abandon s b _ true
  | unrRsvCF low => exact sameButEnabled_abandon s b _ true
  | be =>
    change sameButEnabled (.next (((withEnabled s b).beginEvent.emitStop.abandon .busError).setAck true)) _
    rw [beginEvent_withEnabled]
    rfl
  | fgInit | fgEnable | fgDisable | fgReadErr => cases hfg
  | _ => exact command rfl

end Sys2Proof.Proofs.Enabled
